-- ==== Sys2Proof/Word.lean ====
section
/-! DEFINITION. The two word types of the hb-rfm69 block: a byte (R10) and a register address (R44). -/

namespace Sys2Proof

/-- A byte: 8 bits, bit 0 least significant (R10). -/
abbrev Byte := BitVec 8

/-- A radio register address: 7 bits, 0x00 .. 0x7F (R44). -/
abbrev Addr := BitVec 7

end Sys2Proof
end

