-- ==== Sys2Proof/Syntax.lean ====
section
/-! DEFINITION. The commands of the block (R82), one constructor of `Instr` per row of spec/opcode_table.json, and the
records they carry (R17). Commands play the role an instruction plays in an ISA (R19). -/

namespace Sys2Proof

/-- Radio operating modes, in the order the source lists them (R16, R67). -/
inductive Mode
  | sleep
  | standby
  | fs
  | tx
  | rx
  deriving DecidableEq, Repr, Inhabited

/-- The LightStrip state operand when it is present (R81 format L, R126). -/
inductive LsState
  | on
  | off
  deriving DecidableEq, Repr, Inhabited

/-- RadioConfig (R17): three non-negative integers and a byte. -/
structure RadioConfig where
  carrierFreqHz   : Nat
  freqDeviationHz : Nat
  bitRateBps      : Nat
  modulationFlags : Byte
  deriving DecidableEq, Repr, Inhabited

/-- PacketFramingConfig (R17). An absent sync word is `none`. -/
structure FramingConfig where
  packetModeByte     : Byte
  preambleLength     : BitVec 16
  fixedPayloadLength : Byte
  syncWord           : Option (List Byte)
  deriving DecidableEq, Repr, Inhabited

/-- The 16 commands with their operands (R82, R85). -/
inductive Instr
  | regRead (a : Byte)
  | regWrite (a : Byte) (data : List Byte)
  | init
  | setMode (m : Mode)
  | setConfig (cfg : RadioConfig)
  | setFraming (cfg : FramingConfig)
  | setHighPower
  | transmit (pre : Option (List Byte)) (payload : List Byte)
  | available
  | readByte
  | evEncode (code : BitVec 32)
  | evSend (code : BitVec 32)
  | evDecode (b : Byte) (t : Nat)
  | lsEncode (code : BitVec 32) (st : Option LsState)
  | lsSend (code : BitVec 32) (st : Option LsState)
  | lsDecode (b : Byte) (t : Nat)
  deriving DecidableEq, Repr, Inhabited

/-- The command's name alone, without operands: what the opcode byte of a word spells (R82). -/
inductive CmdName
  | regRead
  | regWrite
  | init
  | setMode
  | setConfig
  | setFraming
  | setHighPower
  | transmit
  | available
  | readByte
  | evEncode
  | evSend
  | evDecode
  | lsEncode
  | lsSend
  | lsDecode
  deriving DecidableEq, Repr, Inhabited

/-- The name of a command. -/
def Instr.name : Instr → CmdName
  | .regRead _ => .regRead
  | .regWrite _ _ => .regWrite
  | .init => .init
  | .setMode _ => .setMode
  | .setConfig _ => .setConfig
  | .setFraming _ => .setFraming
  | .setHighPower => .setHighPower
  | .transmit _ _ => .transmit
  | .available => .available
  | .readByte => .readByte
  | .evEncode _ => .evEncode
  | .evSend _ => .evSend
  | .evDecode _ _ => .evDecode
  | .lsEncode _ _ => .lsEncode
  | .lsSend _ _ => .lsSend
  | .lsDecode _ _ => .lsDecode

end Sys2Proof
end

