-- ==== Sys2Proof/WellFormed.lean ====
section
/-! DEFINITION. Operand validity of a command (R83): which terms of `Instr` a command word can spell. The checks the type
`Instr` already makes by itself (`m ≤ 4`, `sp, pp ∈ {0, 1}`, `st ∈ {0, 1, 2}`) are made by the decoder on the word. -/

namespace Sys2Proof

/-- A RadioConfig fits format C: its three quantities are u32 fields (R81). -/
def RadioConfig.wf (c : RadioConfig) : Bool :=
  decide (c.carrierFreqHz < 2 ^ 32) && decide (c.freqDeviationHz < 2 ^ 32) && decide (c.bitRateBps < 2 ^ 32)

/-- A sync word, when present, has 1 to 8 bytes (R83, R111). -/
def FramingConfig.wf (c : FramingConfig) : Bool :=
  match c.syncWord with
  | none => true
  | some w => decide (1 ≤ w.length) && decide (w.length ≤ 8)

/-- R83: the operands of a command are those a word of its format can hold. -/
def Instr.wf : Instr → Bool
  | .regRead _ => true
  | .regWrite _ data => decide (1 ≤ data.length) && decide (data.length ≤ 255)
  | .init => true
  | .setMode _ => true
  | .setConfig cfg => cfg.wf
  | .setFraming cfg => cfg.wf
  | .setHighPower => true
  | .transmit pre payload => decide ((pre.getD []).length ≤ 255) && decide (payload.length ≤ 255)
  | .available => true
  | .readByte => true
  | .evEncode _ => true
  | .evSend _ => true
  | .evDecode _ t => decide (t < 2 ^ 64)
  | .lsEncode _ _ => true
  | .lsSend _ _ => true
  | .lsDecode _ t => decide (t < 2 ^ 64)

end Sys2Proof
end

