-- ==== Sys2Proof/Decode.lean ====
section
/-! DEFINITION. Command words of the host port (R81, R82, R83): the opcode table, the decoder from the bytes of a word, and
the encoder. A word is a byte string; byte 0 is the opcode, multi-byte fields come most significant byte first. -/

namespace Sys2Proof

/-! ## Big-endian fields -/

/-- The unsigned value of a byte string, most significant byte first. -/
def beNat (bs : List Byte) : Nat := bs.foldl (fun acc b => acc * 256 + b.toNat) 0

/-- The low `k` bytes of `v`, most significant byte first (R47, R81, R84). -/
def beBytes : Nat → Nat → List Byte
  | 0, _ => []
  | k + 1, v => BitVec.ofNat 8 (v / 256 ^ k) :: beBytes k v

/-! ## The opcode table (R82) -/

/-- The command word formats (R81). -/
inductive Format
  | N
  | A
  | W
  | M
  | C
  | F
  | T
  | E
  | L
  | D
  deriving DecidableEq, Repr

/-- The opcode byte of each command (R82). -/
def CmdName.opcode : CmdName → Byte
  | .regRead => 0x01
  | .regWrite => 0x02
  | .init => 0x10
  | .setMode => 0x11
  | .setConfig => 0x12
  | .setFraming => 0x13
  | .setHighPower => 0x14
  | .transmit => 0x15
  | .available => 0x16
  | .readByte => 0x17
  | .evEncode => 0x20
  | .evSend => 0x21
  | .evDecode => 0x22
  | .lsEncode => 0x30
  | .lsSend => 0x31
  | .lsDecode => 0x32

/-- The format of each command's word (R82). -/
def CmdName.format : CmdName → Format
  | .regRead => .A
  | .regWrite => .W
  | .init => .N
  | .setMode => .M
  | .setConfig => .C
  | .setFraming => .F
  | .setHighPower => .N
  | .transmit => .T
  | .available => .N
  | .readByte => .N
  | .evEncode => .E
  | .evSend => .E
  | .evDecode => .D
  | .lsEncode => .L
  | .lsSend => .L
  | .lsDecode => .D

/-- Every row of the table, in its order. -/
def CmdName.all : List CmdName :=
  [.regRead, .regWrite, .init, .setMode, .setConfig, .setFraming, .setHighPower, .transmit] ++
  [.available, .readByte, .evEncode, .evSend, .evDecode, .lsEncode, .lsSend, .lsDecode]

/-- The command an opcode byte spells, if any (R82). -/
def nameOfOpcode (op : Byte) : Option CmdName := CmdName.all.find? (fun n => n.opcode == op)

/-! ## Operand fields -/

/-- Field `m` of format M (R81): 0 SLEEP, 1 STANDBY, 2 FS, 3 TX, 4 RX; any other value fails the check `m ≤ 4` (R83). -/
def modeOfByte (b : Byte) : Option Mode :=
  if b = 0 then some .sleep
  else if b = 1 then some .standby
  else if b = 2 then some .fs
  else if b = 3 then some .tx
  else if b = 4 then some .rx
  else none

/-- The byte that spells a mode in format M. -/
def byteOfMode : Mode → Byte
  | .sleep => 0
  | .standby => 1
  | .fs => 2
  | .tx => 3
  | .rx => 4

/-- Field `st` of format L (R81): 0 absent, 1 on, 2 off; any other value fails the check (R83). -/
def lsStateOfByte (b : Byte) : Option (Option LsState) :=
  if b = 0 then some none
  else if b = 1 then some (some .on)
  else if b = 2 then some (some .off)
  else none

/-- The byte that spells a LightStrip state in format L. -/
def byteOfLsState : Option LsState → Byte
  | none => 0
  | some .on => 1
  | some .off => 2

/-- Fields `sp` and `pp` (R83): 0 absent, 1 present. An absent operand's bytes are ignored (assumption 9). -/
def optionalBytes (flag : Byte) (bytes : List Byte) : Option (Option (List Byte)) :=
  if flag = 0 then some none
  else if flag = 1 then some (some bytes)
  else none

/-! ## The decoder -/

/-- The operand bytes of format C (R81). -/
def parseConfig : List Byte → Option RadioConfig
  | [c0, c1, c2, c3, d0, d1, d2, d3, b0, b1, b2, b3, flags] =>
    some { carrierFreqHz := beNat [c0, c1, c2, c3]
           freqDeviationHz := beNat [d0, d1, d2, d3]
           bitRateBps := beNat [b0, b1, b2, b3]
           modulationFlags := flags }
  | _ => none

/-- The operand bytes of format F (R81), with the checks `sp ∈ {0, 1}` and `L ≤ 8` (R83). -/
def parseFraming : List Byte → Option FramingConfig
  | pm :: p0 :: p1 :: fixed :: sp :: len :: sync =>
    if sync.length = len.toNat ∧ len.toNat ≤ 8 then
      (optionalBytes sp sync).map fun w =>
        { packetModeByte := pm
          preambleLength := BitVec.ofNat 16 (beNat [p0, p1])
          fixedPayloadLength := fixed
          syncWord := w }
    else none
  | _ => none

/-- The operand bytes of format T (R81), with the check `pp ∈ {0, 1}` (R83). -/
def parseTransmit : List Byte → Option Instr
  | pp :: plen :: rest =>
    match rest.drop plen.toNat with
    | qlen :: payload =>
      if payload.length = qlen.toNat then
        (optionalBytes pp (rest.take plen.toNat)).map fun pre => .transmit pre payload
      else none
    | [] => none
  | _ => none

/-- The operand bytes of format W (R81). -/
def parseWrite : List Byte → Option Instr
  | a :: n :: data => if data.length = n.toNat then some (.regWrite a data) else none
  | _ => none

/-- The operand bytes of format E: `code`, a 32-bit field (R81). -/
def parseCode : List Byte → Option (BitVec 32)
  | [c0, c1, c2, c3] => some (BitVec.ofNat 32 (beNat [c0, c1, c2, c3]))
  | _ => none

/-- The operand bytes of format L (R81). -/
def parseLs : List Byte → Option (BitVec 32 × Option LsState)
  | st :: rest => (lsStateOfByte st).bind fun s => (parseCode rest).map fun c => (c, s)
  | _ => none

/-- The operand bytes of format D (R81). -/
def parseByteTime : List Byte → Option (Byte × Nat)
  | [b, t0, t1, t2, t3, t4, t5, t6, t7] => some (b, beNat [t0, t1, t2, t3, t4, t5, t6, t7])
  | _ => none

/-- The command a name and its operand bytes spell; `none` where the operand bytes fail a check of R83 that the type `Instr`
cannot express. -/
def parseOperands : CmdName → List Byte → Option Instr
  | .regRead, ops => match ops with
    | [a] => some (.regRead a)
    | _ => none
  | .regWrite, ops => parseWrite ops
  | .init, ops => if ops = [] then some .init else none
  | .setMode, ops => match ops with
    | [m] => (modeOfByte m).map .setMode
    | _ => none
  | .setConfig, ops => (parseConfig ops).map .setConfig
  | .setFraming, ops => (parseFraming ops).map .setFraming
  | .setHighPower, ops => if ops = [] then some .setHighPower else none
  | .transmit, ops => parseTransmit ops
  | .available, ops => if ops = [] then some .available else none
  | .readByte, ops => if ops = [] then some .readByte else none
  | .evEncode, ops => (parseCode ops).map .evEncode
  | .evSend, ops => (parseCode ops).map .evSend
  | .evDecode, ops => (parseByteTime ops).map fun p => .evDecode p.1 p.2
  | .lsEncode, ops => (parseLs ops).map fun p => .lsEncode p.1 p.2
  | .lsSend, ops => (parseLs ops).map fun p => .lsSend p.1 p.2
  | .lsDecode, ops => (parseByteTime ops).map fun p => .lsDecode p.1 p.2

/-- What a word spells: a command, no command (`BAD_OPCODE`, R82), or a named command whose operand bytes are malformed
(`BAD_OPERAND`, R83; the name is kept because admission checks the phase first, R141). -/
inductive Decoded
  | ok (i : Instr)
  | badOpcode
  | badOperand (name : CmdName)
  deriving DecidableEq, Repr

/-- The decoder: total on byte strings. The empty word has no opcode byte and spells no command (assumption 10). -/
def decode : List Byte → Decoded
  | [] => .badOpcode
  | op :: ops =>
    match nameOfOpcode op with
    | none => .badOpcode
    | some n =>
      match parseOperands n ops with
      | some i => .ok i
      | none => .badOperand n

/-! ## The encoder -/

/-- The flag, length and bytes of an optional byte string (formats F and T). -/
def encodeOptional (o : Option (List Byte)) : List Byte :=
  match o with
  | none => [0, 0]
  | some w => 1 :: BitVec.ofNat 8 w.length :: w

/-- The operand bytes of a command, by the format table of R81. -/
def encodeOperands : Instr → List Byte
  | .regRead a => [a]
  | .regWrite a data => a :: BitVec.ofNat 8 data.length :: data
  | .init => []
  | .setMode m => [byteOfMode m]
  | .setConfig c =>
    beBytes 4 c.carrierFreqHz ++ beBytes 4 c.freqDeviationHz ++ beBytes 4 c.bitRateBps ++ [c.modulationFlags]
  | .setFraming c =>
    c.packetModeByte :: beBytes 2 c.preambleLength.toNat ++ c.fixedPayloadLength :: encodeOptional c.syncWord
  | .setHighPower => []
  | .transmit pre payload => encodeOptional pre ++ BitVec.ofNat 8 payload.length :: payload
  | .available => []
  | .readByte => []
  | .evEncode code => beBytes 4 code.toNat
  | .evSend code => beBytes 4 code.toNat
  | .evDecode b t => b :: beBytes 8 t
  | .lsEncode code st => byteOfLsState st :: beBytes 4 code.toNat
  | .lsSend code st => byteOfLsState st :: beBytes 4 code.toNat
  | .lsDecode b t => b :: beBytes 8 t

/-- The command word of a command (R81, R82). -/
def encode (i : Instr) : List Byte := i.name.opcode :: encodeOperands i

/-! ## Words numbered as the opcode table numbers them -/

/-- The low `k` bytes of `w`, least significant byte first: byte 0 of a word is the table's bits 7..0. -/
def leBytes : Nat → Nat → List Byte
  | 0, _ => []
  | k + 1, w => BitVec.ofNat 8 w :: leBytes k (w / 256)

/-- How many bytes a word has whose first bytes are `bs` (followed by zeros), by the counts of its format (R81). -/
def wordLength (bs : List Byte) : Nat :=
  let byte (i : Nat) : Nat := (bs.getD i 0).toNat
  match nameOfOpcode (bs.getD 0 0) with
  | none => bs.length
  | some n =>
    match n.format with
    | .N => 1
    | .A => 2
    | .W => 3 + byte 2
    | .M => 2
    | .C => 14
    | .F => 7 + byte 6
    | .T => 4 + byte 2 + byte (3 + byte 2)
    | .E => 5
    | .L => 6
    | .D => 10

/-- The command word whose first `nbits` bits are `w` and whose further bits are 0, as the host lays it out. -/
def tableWord (nbits w : Nat) : List Byte :=
  let bs := leBytes (nbits / 8) w
  let n := wordLength bs
  bs.take n ++ List.replicate (n - bs.length) 0

/-- The command the decoder reads from the word `tableWord nbits w`; `none` where it refuses the word. -/
def decodeTableWord (nbits w : Nat) : Option Instr :=
  match decode (tableWord nbits w) with
  | .ok i => some i
  | .badOpcode => none
  | .badOperand _ => none

end Sys2Proof
end

