-- ==== Sys2Proof/Config.lean ====
section
/-! DEFINITION. The parameters the source leaves open (R8), each a field of `Config`, and the free values: opaque constants
without a body, so that no proof can see what they are. The defaults of the parameters are in Machine/Parameters.lean. -/

namespace Sys2Proof

/-- The level of an output line (R34). -/
inductive Level
  | low
  | high
  deriving DecidableEq, Repr, Inhabited

/-- One entry of a command's observable trace (R19 a, b): an SPI transfer with the bytes out and the bytes in, in the same
byte slots (R26), a change of the RESET line, or a wait of at least so many microseconds. -/
inductive Event
  | transfer (mosi miso : List Byte)
  | resetLine (level : Level)
  | wait (us : Nat)
  deriving DecidableEq, Repr

/-- A positive duration: `pred + 1` microseconds. `T_TX_POLL` is "microsecond-scale" (R113), so it is at least one
microsecond, the model's time unit (assumption 4). -/
structure Period where
  pred : Nat
  deriving DecidableEq, Repr, Inhabited

/-- The period in microseconds. -/
def Period.us (p : Period) : Nat := p.pred + 1

/-- `RXBW_WRITE` (R108). -/
inductive RxBwWrite
  | rmw
  | full (dcc : BitVec 3)
  deriving DecidableEq, Repr, Inhabited

/-- `LS_REPEAT_STYLE` (R130). -/
inductive RepeatStyle
  | separate
  | concat
  deriving DecidableEq, Repr, Inhabited

/-- `EV_DECODE_WIDTH` (R122). -/
inductive DecodeWidth
  | w20
  | w24
  deriving DecidableEq, Repr, Inhabited

/-- `BRIGHT_MARKER` (R135): the bit of the code that carries the brightness marker, and whether a set bit means
`q < 0x100`. Caller-side; no command reads it. R135 gives no range for the position: that it is any bit of the 32-bit code
field is the model's (DESIGN CHOICE, assumption 23). -/
structure BrightMarker where
  bit          : Fin 32
  setWhenBelow : Bool
  deriving DecidableEq, Repr, Inhabited

/-- The clock polarity and phase half of `SPI_MODE`, by the number of the mode (R27). -/
inductive SpiClock
  | mode0
  | mode1
  | mode2
  | mode3
  deriving DecidableEq, Repr, Inhabited

/-- The bit order half of `SPI_MODE`: which bit of a byte goes over the bus first (R27). -/
inductive BitOrder
  | msbFirst
  | lsbFirst
  deriving DecidableEq, Repr, Inhabited

/-- `SPI_MODE` (R27): clock polarity, phase and bit order. No command depends on it; `busBits` (Machine/Spi.lean) reads the
order. -/
structure SpiMode where
  clock : SpiClock
  order : BitOrder
  deriving DecidableEq, Repr, Inhabited

/-- The register address parameters `REG_*` (R39), each the lowest address of its register. -/
structure RegMap where
  fifo          : Addr
  opmode        : Addr
  datamodul     : Addr
  bitrate       : Addr
  fdev          : Addr
  frf           : Addr
  version       : Addr
  palevel       : Addr
  ocp           : Addr
  rxbw          : Addr
  afcbw         : Addr
  irqflags1     : Addr
  irqflags2     : Addr
  preamble      : Addr
  syncconfig    : Addr
  syncvalue     : Addr
  packetconfig1 : Addr
  payloadlength : Addr
  deriving DecidableEq, Repr, Inhabited

/-- The field position parameters `F_*` (R40): the lowest bit of each field in its register. The field's width is fixed by
R40's default column (mode 3 bits, mantissa code 2, exponent 3, DCC 3, sync size and tolerance 3, modulation type, data mode
and shaping 2, flags 1). The last two of its rows, the masks, are fields of `Config`. -/
structure FieldMap where
  mode         : Fin 8
  modeReady    : Fin 8
  packetSent   : Fin 8
  fifoNotEmpty : Fin 8
  payloadReady : Fin 8
  modType      : Fin 8
  dataMode     : Fin 8
  shaping      : Fin 8
  rxbwDcc      : Fin 8
  rxbwMant     : Fin 8
  rxbwExp      : Fin 8
  syncOn       : Fin 8
  syncFill     : Fin 8
  syncSize     : Fin 8
  syncTol      : Fin 8
  deriving DecidableEq, Repr, Inhabited

/-- Every parameter of R8. A `State` carries one `Config`, which no step changes, so a statement about every state is a
statement about every value of every parameter (R22). Durations are in microseconds. -/
structure Config where
  regs            : RegMap
  fields          : FieldMap
  versionExpected : Byte
  tResetHigh      : Nat
  tResetWait      : Nat
  tIdRetry        : Nat
  tTxPoll         : Period
  evBitrateBps    : Nat
  lsBitrateBps    : Nat
  modflagsOok     : Byte
  evDecodeWidth   : DecodeWidth
  lsPreMark       : Fin 7
  lsRepeatStyle   : RepeatStyle
  lsDecodeTimeout : Option Nat
  rxbwWrite       : RxBwWrite
  afcbwAlso       : Bool
  sendFraming     : Option FramingConfig
  txTimeoutRestoresStandby : Bool
  availReg        : Addr
  availBit        : Fin 8
  paBoostMask     : Byte
  ocpOnMask       : Byte
  fifoSize        : Nat
  spiMode         : SpiMode
  spiHz           : Nat
  brightMarker    : BrightMarker
  deriving DecidableEq, Repr, Inhabited

/-- FREE VALUE (R37, U2, U3, U4, U6): the byte the radio drives on MISO in a slot. It may depend on a free choice, on the
transfer history, and on the bytes the block sends in this transfer (the address among them). -/
opaque Config.radioAnswer (choice : Nat) (history : List Event) (mosi : List Byte) (slot : Nat) : Byte

/-- FREE VALUE (R32): the time a transfer takes, or a wait takes beyond its lower bound, in microseconds. -/
opaque Config.extraTime (choice : Nat) (history : List Event) : Nat

/-- FREE VALUE (R42, R153, U1): what a register of the reference radio holds before any write, where the spec lists no reset
value: one byte for each address and each reset of the radio (assumption 7). -/
opaque Config.unlistedRegister (resets : Nat) (address : Nat) : Byte

/-- FREE VALUE: `SPI_HZ` less one. The spec gives its default as a bound alone, "at most 10 MHz" (R8, R27); that it is at
least 1 Hz is the model's (DESIGN CHOICE, assumption 22). -/
opaque Config.openSpiHzPred : Fin 10000000

/-- FREE VALUE: `EV_DECODE_WIDTH`, a parameter with no default (R122, D25). -/
opaque Config.openEvDecodeWidth : DecodeWidth

/-- FREE VALUE: `TX_TIMEOUT_RESTORES_STANDBY`, a parameter with no default (R114, D22). -/
opaque Config.openTxTimeoutRestoresStandby : Bool

/-- FREE VALUE: `T_ID_RETRY`, "short", no value (R94, D15). -/
opaque Config.openTIdRetry : Nat

/-- FREE VALUE: `T_TX_POLL`, "microsecond-scale", no value (R113, D13). -/
opaque Config.openTTxPoll : Period

/-- FREE VALUE: `BRIGHT_MARKER`, a parameter with no default (R135, D37). -/
opaque Config.openBrightMarker : BrightMarker

end Sys2Proof
end

