-- ==== Sys2Proof/Machine/Parameters.lean ====
section
/-! DEFINITION. The parameters the source fixes (R7) and the defaults of the parameters it leaves open (R8, R39, R40). Times
are in microseconds (assumption 4). -/

namespace Sys2Proof.Machine

/-! ## Fixed by the source (R7) -/

/-- `FXOSC`: "crystal = 32MHz". -/
def fxosc : Nat := 32000000

/-- `ID_ATTEMPTS`. -/
def idAttempts : Nat := 3

/-- `T_MODE_POLL`: "~1ms intervals". -/
def tModePoll : Nat := 1000

/-- `T_MODE_TIMEOUT`: "up to 1 second". -/
def tModeTimeout : Nat := 1000000

/-- `T_TX_TIMEOUT`: 1 s. -/
def tTxTimeout : Nat := 1000000

/-- `T_EV_DECODE_TIMEOUT`: 10 s. -/
def tEvDecodeTimeout : Nat := 10000000

/-- `EV_CARRIER_HZ`, also `LS_CARRIER_HZ`. -/
def carrierHz : Nat := 433920000

/-- `EV_FDEV_HZ`, also `LS_FDEV_HZ`. -/
def deviationHz : Nat := 50000

/-- `EV_PREAMBLE`. -/
def evPreamble : List Byte := [0x80, 0x00, 0x00, 0x00]

/-- `EV_TERMINATOR`. -/
def evTerminator : Byte := 0x80

/-- `EV_FRAME_BYTES`: the data bytes of an EV1527 frame. -/
def evFrameBytes : Nat := 12

/-- `LS_PREAMBLE_LEN`. -/
def lsPreambleLen : Nat := 7

/-- `LS_TERMINATOR` (R128). -/
def lsTerminator : Byte := 0x00

/-- `LS_FRAME_BYTES` (R132): the data bytes of a LightStrip frame. -/
def lsFrameBytes : Nat := 13

/-- `LS_REPEAT`. -/
def lsRepeat : Nat := 3

/-- `LS_MARK_ON`, in bits 23..20. -/
def lsMarkOn : BitVec 4 := 0x4

/-- `LS_MARK_OFF`, in bits 23..20. -/
def lsMarkOff : BitVec 4 := 0xA

/-- `BW_MANTISSAS`, in search order. -/
def bwMantissas : List Nat := [24, 20, 16]

/-- `BW_EXPONENTS`, in search order. -/
def bwExponents : List Nat := [7, 6, 5, 4, 3, 2, 1, 0]

/-- `BW_OFFSET_OOK` and `BW_OFFSET_OTHER`. -/
def bwOffset (ook : Bool) : Nat := if ook then 3 else 2

/-! ## Defaults of the open parameters (R8) -/

/-- The default register map (R39). -/
def defaultRegMap : RegMap where
  fifo := 0x00
  opmode := 0x01
  datamodul := 0x02
  bitrate := 0x03
  fdev := 0x05
  frf := 0x07
  version := 0x10
  palevel := 0x11
  ocp := 0x13
  rxbw := 0x19
  afcbw := 0x1A
  irqflags1 := 0x27
  irqflags2 := 0x28
  preamble := 0x2C
  syncconfig := 0x2E
  syncvalue := 0x2F
  packetconfig1 := 0x37
  payloadlength := 0x38

/-- The default field positions (R40). -/
def defaultFieldMap : FieldMap where
  mode := 2
  modeReady := 7
  packetSent := 3
  fifoNotEmpty := 6
  payloadReady := 2
  modType := 3
  dataMode := 5
  shaping := 0
  rxbwDcc := 5
  rxbwMant := 3
  rxbwExp := 0
  syncOn := 7
  syncFill := 6
  syncSize := 3
  syncTol := 0

/-- Every parameter at its default (R8). The parameters without a default are the free values of Config.lean
(assumption 3); so is `SPI_HZ` within its bound, any whole number of Hz from 1 to 10 MHz, since R8 and R27 give its default
as "at most 10 MHz" and no value (DESIGN CHOICE, assumption 22). -/
def defaultConfig : Config where
  regs := defaultRegMap
  fields := defaultFieldMap
  versionExpected := 0x24
  tResetHigh := 100
  tResetWait := 5000
  tIdRetry := Config.openTIdRetry
  tTxPoll := Config.openTTxPoll
  evBitrateBps := 2800
  lsBitrateBps := 3700
  modflagsOok := 0x08
  evDecodeWidth := Config.openEvDecodeWidth
  lsPreMark := 5
  lsRepeatStyle := .separate
  lsDecodeTimeout := none
  rxbwWrite := .rmw
  afcbwAlso := false
  sendFraming := none
  txTimeoutRestoresStandby := Config.openTxTimeoutRestoresStandby
  availReg := 0x28
  availBit := 6
  paBoostMask := 0x60
  ocpOnMask := 0x10
  fifoSize := 66
  spiMode := { clock := .mode0, order := .msbFirst }
  spiHz := Config.openSpiHzPred.val + 1
  brightMarker := Config.openBrightMarker

/-! ## Radio reset values, used by the reference radio only (R38, R42, R153) -/

/-- The RFM69 reset values the spec lists, by address: what a register of the reference radio holds before any write.
`none` where the spec gives no value: such a register holds a free value (`Radio.reg` in Machine/Ops.lean, R153,
assumption 7). -/
def radioResetByte (a : Nat) : Option Byte :=
  match a with
  | 0x01 => some 0x04
  | 0x02 => some 0x00
  | 0x03 => some 0x1A
  | 0x04 => some 0x0B
  | 0x05 => some 0x00
  | 0x06 => some 0x52
  | 0x07 => some 0xE4
  | 0x08 => some 0xC0
  | 0x09 => some 0x00
  | 0x10 => some 0x24
  | 0x11 => some 0x9F
  | 0x13 => some 0x1A
  | 0x19 => some 0x86
  | 0x1A => some 0x8A
  | 0x27 => some 0x80
  | 0x28 => some 0x00
  | 0x2C => some 0x00
  | 0x2D => some 0x03
  | 0x2E => some 0x98
  | 0x37 => some 0x10
  | 0x38 => some 0x40
  | _ => none

end Sys2Proof.Machine
end

