-- ==== Sys2Proof/Machine/State.lean ====
section
/-! DEFINITION. The state of the machine: the block's variables (R34), its step index (R33) and time base (R29), the host
port and the observable trace (R19, R25), and the radio it talks to (R37). The reset state is the power-on table of R152. -/

namespace Sys2Proof.Machine

/-- Lifecycle phase (R34). -/
inductive Phase
  | uninit
  | ready
  | busy
  | failed
  deriving DecidableEq, Repr, Inhabited

/-- The error codes of R136. `invalidCode` is reserved for a model of the host; no rule of the block raises it (R137). -/
inductive ErrorCode
  | hardwareInit
  | modeTimeout
  | transmitTimeout
  | bandwidthRange
  | concurrentTransfer
  | invalidCode
  deriving DecidableEq, Repr, Inhabited

/-- An error with the information recorded with it (R136): the last value read, the requested mode, the target. -/
inductive CmdError
  | hardwareInit (lastRead : Byte)
  | modeTimeout (requested : Mode)
  | transmitTimeout
  | bandwidthRange (target : Nat)
  | concurrentTransfer
  deriving DecidableEq, Repr

/-- The refusal reasons of R140. A refusal of the spec is no stop of this model: it is a next state with `refused` set. -/
inductive Reason
  | badOpcode
  | overlap
  | failed
  | notInit
  | badOperand
  | addrRange
  | emptyWrite
  | valueRange
  | emptyPayload
  | fifoOverflow
  | timeOrder
  deriving DecidableEq, Repr, Inhabited

/-- The result of a command that completes (R25): possibly empty, else a byte, a bit, a frame, or a decoder's answer. -/
inductive CmdResult
  | done
  | byte (v : Byte)
  | flag (v : Bool)
  | frame (pre payload : List Byte)
  | decoded (v : Option Nat)
  deriving DecidableEq, Repr

/-- The one outcome of a command (R25). -/
inductive Reply
  | result (r : CmdResult)
  | error (e : CmdError)
  | refusal (r : Reason)
  deriving DecidableEq, Repr

/-- What the outside world does to the block, between commands: a word on the command port (R25) issued after the previous
command ended, or a word issued while the previous command was still running, or a power-on of the block (R43). -/
inductive HostCall
  | issue (word : List Byte)
  | overlap (word : List Byte)
  | powerOn
  deriving DecidableEq, Repr

/-- The radio's register file, `radio.reg[a]` (R37): address and byte pairs, addresses rising, no entry equal to what the
address holds after a radio reset (`Memory.wf` in Machine/Ops.lean). -/
abbrev Memory := List Host.Cell

/-- Which radio answers the block: any radio at all, whose every answer is a free draw (R37), or the reference radio of R38,
which the spec uses for its vectors and programs. -/
inductive RadioKind
  | oracle
  | reference
  deriving DecidableEq, Repr, Inhabited

/-- The radio, an agent outside the block (R37). `answers` are the answers an `oracle` radio gives to the next reads, oldest
first, where they are laid down beforehand; after them every answer is the free value `Config.radioAnswer`. `regs` and `fifo`
are the reference radio's register file and FIFO, and `resets` (the model's own) counts its reset pulses, since each leaves
the registers without a listed reset value at bytes of their own; an `oracle` radio never reads or changes them. -/
structure Radio where
  kind    : RadioKind
  answers : List Byte
  regs    : Memory
  fifo    : List Byte
  resets  : Nat
  deriving DecidableEq, Repr

/-- The state. -/
structure State where
  /-- R34 `phase`. -/
  phase      : Phase
  /-- R34 `xfer_busy`: a transfer is in flight. -/
  xferBusy   : Bool
  /-- R34 `mode_mirror`; `none` is UNKNOWN. -/
  modeMirror : Option Mode
  /-- R34 `ev_acc`. -/
  evAcc      : List Byte
  /-- R34 `ev_last`, in microseconds; `none` is NONE. -/
  evLast     : Option Nat
  /-- R34 `ls_acc`. -/
  lsAcc      : List Byte
  /-- R34 `ls_last`, in microseconds; `none` is NONE. -/
  lsLast     : Option Nat
  /-- R34 `reset_out`: the RESET line. -/
  resetOut   : Level
  /-- R34 `nss_out`: the NSS line. -/
  nssOut     : Level
  /-- R34 `fatal`. -/
  fatal      : Option ErrorCode
  /-- R34 `refused`: the most recent refusal (R140). -/
  refused    : Option Reason
  /-- R33: transfers, line changes and waits done so far in the running command. -/
  stepIdx    : Nat
  /-- R29 `now`, in microseconds. -/
  now        : Nat
  /-- R19 a, b: every transfer, RESET change and minimum wait so far, oldest first. -/
  trace      : List Event
  /-- R25: the outcomes of the commands so far, oldest first. -/
  replies    : List Reply
  /-- R25, R43: the host's words and power-ons still to come, next first. -/
  port       : List HostCall
  /-- R37: the radio. -/
  radio      : Radio
  /-- Model's own: the durations of the next transfers and waits beyond their lower bounds, where they are laid down
  beforehand; after them every duration is the free value `Config.extraTime` (R32). -/
  delays     : List Nat
  /-- Model's own: how many free choices have been taken. -/
  choices    : Nat
  /-- R8: the parameters; no step changes them. -/
  cfg        : Config
  deriving DecidableEq, Repr

/-- Reasons a step of the model can stop. There are none: every error the spec gives the block ends its command in a next
state (R138), the fatal ones in `phase = FAILED`. -/
inductive Fault : Type
  deriving DecidableEq, Repr

/-- Reasons the model has no meaning for an instruction. -/
inductive Refusal
  /-- Raised by an arm of `exec` whose instruction has no meaning yet; safe. No arm of this model raises it. -/
  | notModelled (mnemonic : String)
  deriving DecidableEq, Repr

/-- The radio before the block has touched it: any radio, nothing known of it (R152, R153). -/
def Radio.initial : Radio where
  kind := .oracle
  answers := []
  regs := []
  fifo := []
  resets := 0

/-- The block right after power-on (R34, R43, R152). The values of the model's own fields are assumption 2. -/
def State.reset : State where
  phase := .uninit
  xferBusy := false
  modeMirror := none
  evAcc := []
  evLast := none
  lsAcc := []
  lsLast := none
  resetOut := .low
  nssOut := .high
  fatal := none
  refused := none
  stepIdx := 0
  now := 0
  trace := []
  replies := []
  port := []
  radio := Radio.initial
  delays := []
  choices := 0
  cfg := defaultConfig

end Sys2Proof.Machine
end

