-- ==== Sys2Proof/Machine/Operands.lean ====
section
/-! DEFINITION. Operand forms and register values: byte splitting, bit fields, the register arithmetic of R67 to R75 and
R101 to R106, and the address and width checks behind the refusals of R140. -/

namespace Sys2Proof.Machine

/-! ## Bit fields (R10, R40) -/

/-- The mask of a field of `w` bits whose lowest bit is `lo`, within a byte. -/
def fieldMask (lo w : Nat) : Byte := BitVec.ofNat 8 ((2 ^ w - 1) * 2 ^ lo)

/-- The value of a field of a byte. -/
def fieldGet (lo w : Nat) (v : Byte) : Byte := (v &&& fieldMask lo w) >>> lo

/-- A value placed in a field, the other bits 0. -/
def fieldPut (lo : Nat) (x : Byte) : Byte := x <<< lo

/-! ## Byte order (R47, R90) -/

/-- A register value of `8k` bits as the bytes of one transfer, most significant first (R47). -/
def msbFirst (k v : Nat) : List Byte := beBytes k v

/-! ## Address and width checks -/

/-- R66: an address operand must satisfy `a ≤ 0x7F`. -/
def addrInRange (a : Byte) : Bool := decide (a.toNat ≤ 0x7F)

/-- R52, R88: a burst of `n` bytes from `a` stays inside the register space, or goes to the FIFO port. -/
def burstFits (c : Config) (a : Addr) (n : Nat) : Bool := decide (a = c.regs.fifo) || decide (a.toNat + n ≤ 0x80)

/-- The first refusal of a list of checks in the order they are written (R142). -/
def firstRefusal : List (Option Reason) → Option Reason
  | [] => none
  | some r :: _ => some r
  | none :: rest => firstRefusal rest

/-- A check that refuses with `r` unless `ok` holds. -/
def check (ok : Bool) (r : Reason) : Option Reason := if ok then none else some r

/-! ## Rounding and register arithmetic (R12, R101, R102, R103) -/

/-- R12: `round(num / den)`, the nearest integer, halves up: `floor(num/den + 1/2)`. -/
def roundDiv (num den : Nat) : Nat := (2 * num + den) / (2 * den)

/-- R101 `FrfValue(f) = round(f / FSTEP) = round(f * 2^19 / FXOSC)`. -/
def frfValue (f : Nat) : Nat := roundDiv (f * 2 ^ 19) fxosc

/-- R102 `BrValue(b) = round(FXOSC / b)`, used only for `b > 0`. -/
def brValue (b : Nat) : Nat := roundDiv fxosc b

/-- R103 `FdValue(d) = round(d / FSTEP)`. -/
def fdValue (d : Nat) : Nat := roundDiv (d * 2 ^ 19) fxosc

/-! ## Receiver bandwidth (R72, R105, R108) -/

/-- The pairs (mantissa, exponent) in the order the search tries them (R105). -/
def bwPairs : List (Nat × Nat) := bwExponents.flatMap fun e => bwMantissas.map fun m => (m, e)

/-- R105: the bandwidth `FXOSC / (m * 2^(e + off))` exceeds the target, an exact and strict comparison. -/
def bwExceeds (off target : Nat) (p : Nat × Nat) : Bool := decide (fxosc > target * (p.1 * 2 ^ (p.2 + off)))

/-- R105: the target `max(fdev, 2 * br)`. -/
def bwTarget (fdev br : Nat) : Nat := max fdev (2 * br)

/-- R105: the first pair whose bandwidth exceeds the target. -/
def bwSearch (fdev br : Nat) (ook : Bool) : Option (Nat × Nat) :=
  bwPairs.find? (bwExceeds (bwOffset ook) (bwTarget fdev br))

/-- R72: the mantissa code, 16 → 0, 20 → 1, 24 → 2. -/
def mantissaCode (m : Nat) : Byte := BitVec.ofNat 8 ((m - 16) / 4)

/-- R72: the mantissa code and the exponent in their fields. -/
def bwBits (c : Config) (p : Nat × Nat) : Byte :=
  fieldPut c.fields.rxbwMant (mantissaCode p.1) ||| fieldPut c.fields.rxbwExp (BitVec.ofNat 8 p.2)

/-- R108 `FULL(d)`: the byte a full write gives a bandwidth register, the DCC constant beside the pair. -/
def bwFullByte (c : Config) (dcc : BitVec 3) (p : Nat × Nat) : Byte :=
  fieldPut c.fields.rxbwDcc (dcc.setWidth 8) ||| bwBits c p

/-- R108: the bits of a bandwidth register outside the mantissa and exponent fields. -/
def bwKeepMask (c : Config) : Byte := ~~~(fieldMask c.fields.rxbwMant 2 ||| fieldMask c.fields.rxbwExp 3)

/-! ## Mode, sync and power values (R67, R68, R73, R74) -/

/-- R67: the code of a mode in `F_MODE`. -/
def modeCode : Mode → Byte
  | .sleep => 0
  | .standby => 1
  | .fs => 2
  | .tx => 3
  | .rx => 4

/-- `MASK(F_MODE)` (R68). -/
def modeMask (c : Config) : Byte := fieldMask c.fields.mode 3

/-- R68: the OPMODE value that puts a mode in `F_MODE` and keeps every other bit of the value read. -/
def opmodeValue (c : Config) (old : Byte) (m : Mode) : Byte :=
  (old &&& ~~~(modeMask c)) ||| fieldPut c.fields.mode (modeCode m)

/-- R73: the sync-config value for a sync word of `len` bytes, `F_SYNC_FILL` and `F_SYNC_TOL` 0. -/
def syncOnValue (c : Config) (len : Nat) : Byte :=
  fieldPut c.fields.syncOn 1 ||| fieldPut c.fields.syncFill 0 ||| fieldPut c.fields.syncSize (BitVec.ofNat 8 (len - 1)) |||
    fieldPut c.fields.syncTol 0

/-! ## Operand checks of a command word (R83, R141) -/

/-- R141 `OperandChecks`. -/
def operandChecks (i : Instr) : Bool := i.wf

end Sys2Proof.Machine
end

