-- ==== Sys2Proof/Machine/Flags.lean ====
section
/-! DEFINITION. The flags the block reads in bytes the radio answers (R40, R41), the OOK test (R104), and what makes the
parameters consistent. The block has no condition flags of its own (R41). -/

namespace Sys2Proof.Machine

/-- R97: the mode field of an OPMODE value. -/
def modeField (c : Config) (v : Byte) : Byte := fieldGet c.fields.mode 3 v

/-- R41 `F_MODE_READY` in an IRQFLAGS1 value. -/
def modeReady (c : Config) (v : Byte) : Bool := v.getLsbD c.fields.modeReady

/-- R41 `F_PACKET_SENT` in an IRQFLAGS2 value. -/
def packetSent (c : Config) (v : Byte) : Bool := v.getLsbD c.fields.packetSent

/-- R40 `F_PAYLOAD_READY` in an IRQFLAGS2 value: a complete payload was received. No command tests it. -/
def payloadReady (c : Config) (v : Byte) : Bool := v.getLsbD c.fields.payloadReady

/-- R99: the bit `AVAIL_BIT` of an `AVAIL_REG` value. -/
def availFlag (c : Config) (v : Byte) : Bool := v.getLsbD c.availBit

/-- R75, R104: the modulation is OOK iff `F_MODTYPE = 01`. -/
def isOok (c : Config) (flags : Byte) : Bool := fieldGet c.fields.modType 2 flags == 1

/-- R40 `F_DATAMODE` in a DATAMODUL value: 00 is packet mode. No command looks at it (R75). -/
def dataMode (c : Config) (v : Byte) : Byte := fieldGet c.fields.dataMode 2 v

/-- R40 `F_SHAPING` in a DATAMODUL value: 00 is no shaping. No command looks at it (R75). -/
def shaping (c : Config) (v : Byte) : Byte := fieldGet c.fields.shaping 2 v

/-- The parameters are ones the spec admits: every multi-byte register ends inside the register space (R39, R52), every field
of more than one bit that a command computes with fits its byte (R40), the bandwidth fields are disjoint, `IsOok(MODFLAGS_OOK)` (R104), and `SEND_FRAMING` is a framing
SET_FRAMING accepts (R120). -/
def configOk (c : Config) : Bool :=
  burstFits c c.regs.frf 3 && burstFits c c.regs.bitrate 2 && burstFits c c.regs.fdev 2 &&
  burstFits c c.regs.preamble 2 && burstFits c c.regs.syncvalue 8 &&
  decide (c.fields.mode.val + 3 ≤ 8) && decide (c.fields.modType.val + 2 ≤ 8) &&
  decide (c.fields.rxbwMant.val + 2 ≤ 8) && decide (c.fields.rxbwExp.val + 3 ≤ 8) &&
  decide (c.fields.rxbwDcc.val + 3 ≤ 8) && decide (c.fields.syncSize.val + 3 ≤ 8) &&
  decide (fieldMask c.fields.rxbwMant 2 &&& fieldMask c.fields.rxbwExp 3 = 0) &&
  isOok c c.modflagsOok &&
  (match c.sendFraming with
   | none => true
   | some f => f.wf)

end Sys2Proof.Machine
end

