-- ==== Sys2Proof/Machine/Ops.lean ====
section
/-! DEFINITION. The operations every command is built from: the radio's register file, the SPI transfer (R64, R65, R87, R88),
the RESET line and the wait (R28, R32), the bounded poll (R96, R113), refusals (R140), how a command ends on an error (R138)
and the admission of a command (R141). -/

namespace Sys2Proof.Machine

/-! ## The radio's register file (R37, R44) -/

/-- What is known of a register's content: the byte last written, else its reset value, `none` where the spec lists none. -/
def Memory.get (a : Nat) : Memory → Option Byte
  | [] => radioResetByte a
  | (b, w) :: m => if a = b then some w else Memory.get a m

/-- Write one byte and keep the canonical form: writing what the register holds after reset removes its entry. -/
def Memory.put (a : Nat) (v : Byte) : Memory → Memory
  | [] => if radioResetByte a = some v then [] else [(a, v)]
  | (b, w) :: m =>
    if a < b then (if radioResetByte a = some v then (b, w) :: m else (a, v) :: (b, w) :: m)
    else if a = b then (if radioResetByte a = some v then m else (a, v) :: m)
    else (b, w) :: Memory.put a v m

/-- Write the bytes of one burst at rising addresses (R47); no byte is written past 0x7F. -/
def Memory.putBytes (a : Nat) : List Byte → Memory → Memory
  | [], m => m
  | v :: vs, m => Memory.putBytes (a + 1) vs (if a < 0x80 then Memory.put a v m else m)

/-- The canonical form, from a lower bound on the addresses: rising addresses inside the register space, no entry equal to
the register's reset value. -/
def Memory.wfFrom (lo : Nat) : Memory → Bool
  | [] => true
  | (a, v) :: m => decide (lo ≤ a) && decide (a < 0x80) && decide (radioResetByte a ≠ some v) && Memory.wfFrom (a + 1) m

/-- The canonical form of a register file. -/
def Memory.wf (m : Memory) : Bool := Memory.wfFrom 0 m

/-! ## The radio's side of a transfer (R37, R38) -/

/-- R37, R38 `radio.reg[a]` of the reference radio: the byte last written, else the listed reset value, else the free value
the register has held since the last reset (R42, R153, assumption 7). -/
def Radio.reg (r : Radio) (a : Nat) : Byte := (Memory.get a r.regs).getD (Config.unlistedRegister r.resets a)

/-- R38: the reference radio is in TX. -/
def referenceInTx (c : Config) (r : Radio) : Bool := modeField c (r.reg c.regs.opmode.toNat) == modeCode .tx

/-- R38: the IRQFLAGS2 byte the reference radio answers: PacketSent in TX, FifoNotEmpty while its FIFO holds a byte. -/
def referenceIrqFlags2 (c : Config) (r : Radio) : Byte :=
  (if referenceInTx c r then fieldPut c.fields.packetSent 1 else 0) |||
  (if r.fifo.isEmpty then 0 else fieldPut c.fields.fifoNotEmpty 1)

/-- R38: what the reference radio answers to a read; `none` where the rule gives no value (an empty FIFO, U6). -/
def referenceAnswer (c : Config) (r : Radio) (a : Addr) : Option Byte :=
  if a = c.regs.fifo then r.fifo.head?
  else if a = c.regs.version then some c.versionExpected
  else if a = c.regs.irqflags1 then some (fieldPut c.fields.modeReady 1)
  else if a = c.regs.irqflags2 then some (referenceIrqFlags2 c r)
  else some (r.reg a.toNat)

/-- The radio after a read: a laid-down answer is used up, or the reference radio's FIFO loses its oldest byte (R45). -/
def Radio.afterRead (c : Config) (a : Addr) (r : Radio) : Radio :=
  match r.kind with
  | .oracle => { r with answers := r.answers.tail }
  | .reference => if a = c.regs.fifo then { r with fifo := r.fifo.tail } else r

/-- R38: the byte a burst writes to OPMODE, if it reaches that register, asks for TX. -/
def asksTx (c : Config) (a : Addr) (data : List Byte) : Bool :=
  decide (a.toNat ≤ c.regs.opmode.toNat) &&
  match data[c.regs.opmode.toNat - a.toNat]? with
  | none => false
  | some v => modeField c v == modeCode .tx

/-- The radio after a write. Only the reference radio's registers are predicted (R38, R88): FIFO writes push (R45), others
land at rising addresses (R47), and a write of OPMODE with the TX code sends and empties the FIFO. -/
def Radio.afterWrite (c : Config) (a : Addr) (data : List Byte) (r : Radio) : Radio :=
  match r.kind with
  | .oracle => r
  | .reference =>
    if a = c.regs.fifo then { r with fifo := r.fifo ++ data }
    else { r with
      regs := Memory.putBytes a.toNat data r.regs
      fifo := if asksTx c a data then [] else r.fifo }

/-- The radio after a reset pulse: the reference radio's registers hold their reset values again (R43, R95, R153), those the
spec lists none for a new free value each, and its FIFO is empty (assumption 8). -/
def Radio.afterReset (r : Radio) : Radio :=
  match r.kind with
  | .oracle => r
  | .reference => { r with regs := [], fifo := [], resets := r.resets + 1 }

/-! ## Sequencing: an action ends with a value or with an error, and a state (R13, R138) -/

/-- How an action of the block ends. -/
inductive Res (α : Type)
  | ok (a : α) (s : State)
  | err (e : CmdError) (s : State)
  deriving DecidableEq, Repr

/-- Go on with the value and the state of an action that completed; an error ends the command at once (R138). -/
def Res.bind {α β : Type} (r : Res α) (f : α → State → Res β) : Res β :=
  match r with
  | .ok a s => f a s
  | .err e s => .err e s

/-- The state an action ends in. -/
def Res.state {α : Type} : Res α → State
  | .ok _ s => s
  | .err _ s => s

/-! ## Events and time (R19, R32, R33) -/

/-- The time the next event takes beyond its lower bound: a laid-down duration, else a free value (R32). -/
def nextExtra (s : State) : Nat :=
  match s.delays with
  | [] => Config.extraTime s.choices s.trace
  | d :: _ => d

/-- Record a transfer or a wait that takes at least `least` microseconds: the step index counts it, and `now` passes it. -/
def timedEvent (e : Event) (least : Nat) (s : State) : State :=
  { s with
    trace := s.trace ++ [e]
    stepIdx := s.stepIdx + 1
    now := s.now + least + nextExtra s
    delays := s.delays.tail
    choices := s.choices + 1 }

/-- R32 `Wait(d)`: ends at some time `t ≥ now + d`. -/
def wait (us : Nat) (s : State) : State := timedEvent (.wait us) us s

/-- R28 `SetLine(RESET, level)`: drives the line. -/
def setResetLine (level : Level) (s : State) : State :=
  { s with
    resetOut := level
    trace := s.trace ++ [.resetLine level]
    stepIdx := s.stepIdx + 1 }

/-- A reset pulse reaches the radio through the RESET line (R37). -/
def resetRadio (s : State) : State := { s with radio := s.radio.afterReset }

/-! ## SPI transfers (R26, R64, R65, R87, R88, R91) -/

/-- R64: byte 0 of a read frame, bit 7 clear. -/
def readHeader (a : Addr) : Byte := a.setWidth 8

/-- R65: byte 0 of a write frame, `0x80 | a`. -/
def writeHeader (a : Addr) : Byte := 0x80 ||| a.setWidth 8

/-- A MISO byte nothing determines (R37, U2): a draw of the radio oracle. -/
def freeMiso (s : State) (mosi : List Byte) (slot : Nat) : Byte := Config.radioAnswer s.choices s.trace mosi slot

/-- The start of the NSS-low period (R26). -/
def openTransfer (s : State) : State := { s with xferBusy := true, nssOut := .low }

/-- The end of the NSS-low period (R26). -/
def closeTransfer (s : State) : State := { s with xferBusy := false, nssOut := .high }

/-- R64: the MOSI bytes of a read. -/
def readMosi (a : Addr) : List Byte := [readHeader a, 0x00]

/-- The MISO byte of a read's second slot: the radio's answer (R37, R38, R64). -/
def radioReply (a : Addr) (s : State) : Byte :=
  match s.radio.kind with
  | .oracle =>
    match s.radio.answers with
    | [] => freeMiso s (readMosi a) 1
    | v :: _ => v
  | .reference =>
    match referenceAnswer s.cfg s.radio a with
    | none => freeMiso s (readMosi a) 1
    | some v => v

/-- The state after the transfer of a read. -/
def afterRead (a : Addr) (s : State) : State :=
  let busy := openTransfer s
  let done := timedEvent (.transfer (readMosi a) [freeMiso s (readMosi a) 0, radioReply a s]) 0 busy
  closeTransfer { done with radio := s.radio.afterRead s.cfg a }

/-- R87 `RegRead(a)` for a 7-bit address: one transfer, unless one is already in flight (R91). -/
def regRead (a : Addr) (s : State) : Res Byte :=
  if s.xferBusy then .err .concurrentTransfer s
  else .ok (radioReply a s) (afterRead a s)

/-- R65: the MOSI bytes of a write. -/
def writeMosi (a : Addr) (data : List Byte) : List Byte := writeHeader a :: data

/-- The MISO bytes of a write, which the block ignores (R65). -/
def writeMiso (a : Addr) (data : List Byte) (s : State) : List Byte :=
  (List.range (data.length + 1)).map (freeMiso s (writeMosi a data))

/-- The state after the transfer of a write. -/
def afterWrite (a : Addr) (data : List Byte) (s : State) : State :=
  let busy := openTransfer s
  let done := timedEvent (.transfer (writeMosi a data) (writeMiso a data s)) 0 busy
  closeTransfer { done with radio := s.radio.afterWrite s.cfg a data }

/-- R88 `RegWrite(a, d0..dn-1)` for a 7-bit address and data its caller has checked: one transfer, unless one is already in
flight (R91). The refusals of R88 are decided before the command runs (R140, `regWriteRefusal` in Machine/Spi.lean). -/
def regWrite (a : Addr) (data : List Byte) (s : State) : Res Unit :=
  if s.xferBusy then .err .concurrentTransfer s
  else .ok () (afterWrite a data s)

/-- R89 `RMW(a, andMask, orMask)`: a read, then a write of the value computed from it. -/
def rmw (a : Addr) (andMask orMask : Byte) (s : State) : Res Unit :=
  (regRead a s).bind fun v s => regWrite a [(v &&& andMask) ||| orMask] s

/-- R90 `WriteReg16(A, v)`, for a value that fits. -/
def writeReg16 (a : Addr) (v : Nat) (s : State) : Res Unit := regWrite a (msbFirst 2 v) s

/-- R90 `WriteReg24(A, v)`, for a value that fits. -/
def writeReg24 (a : Addr) (v : Nat) (s : State) : Res Unit := regWrite a (msbFirst 3 v) s

/-! ## The bounded poll (R96, R113) -/

/-- The reads a poll makes at most: `ceil(limit / period) + 1` (R96, R163). -/
def pollReads (limit period : Nat) : Nat := (limit + period - 1) / period + 1

/-- The loop of R96 and R113: read, test the flag, test the deadline, wait. `true` when the flag was seen, `false` when the
deadline had passed. The first argument bounds the reads left; `pollReads` of them are enough, since every wait takes at
least the period (`poll_bound_suffices` in Laws/Bus.lean). -/
def poll (reg : Addr) (flag : Byte → Bool) (limit period t0 : Nat) : Nat → State → Res Bool
  | 0, s => .ok false s
  | n + 1, s =>
    (regRead reg s).bind fun v s =>
      if flag v then .ok true s
      else if s.now - t0 ≥ limit then .ok false s
      else poll reg flag limit period t0 n (wait period s)

/-! ## Refusals, errors, admission (R138, R140, R141) -/

/-- R140: a refused command records its reason and changes nothing else; its outcome is the refusal (R25). -/
def refuse (r : Reason) (s : State) : State := { s with refused := some r, replies := s.replies ++ [.refusal r] }

/-- R136: the code of an error. -/
def CmdError.code : CmdError → ErrorCode
  | .hardwareInit _ => .hardwareInit
  | .modeTimeout _ => .modeTimeout
  | .transmitTimeout => .transmitTimeout
  | .bandwidthRange _ => .bandwidthRange
  | .concurrentTransfer => .concurrentTransfer

/-- R136: the numeric error codes. -/
def ErrorCode.number : ErrorCode → Nat
  | .hardwareInit => 1
  | .modeTimeout => 2
  | .transmitTimeout => 3
  | .bandwidthRange => 4
  | .concurrentTransfer => 5
  | .invalidCode => 6

/-- R136, R138: the fatal errors, codes 1 and 5. -/
def CmdError.isFatal : CmdError → Bool
  | .hardwareInit _ => true
  | .modeTimeout _ => false
  | .transmitTimeout => false
  | .bandwidthRange _ => false
  | .concurrentTransfer => true

/-- R138: how a command ends on an error. The error is its outcome (R143); a fatal one puts the block in FAILED and is kept in
`fatal`, any other returns `phase` to the value `before` it had before the command. Nothing else is undone, and the step
index is discarded (R33). There is no return from it: the host simply issues its next command (R144). -/
def endOnError (before : Phase) (e : CmdError) (s : State) : State :=
  { s with
    phase := if e.isFatal then .failed else before
    fatal := if e.isFatal then some e.code else s.fatal
    stepIdx := 0
    replies := s.replies ++ [.error e] }

/-- R141: how a command ends when it returns: `phase` becomes `after`, its outcome is its result. -/
def endOnReturn (after : Phase) (r : CmdResult) (s : State) : State :=
  { s with
    phase := after
    stepIdx := 0
    replies := s.replies ++ [.result r] }

/-- R141: the commands admitted in UNINIT. -/
def admittedUninit : CmdName → Bool
  | .regRead => false
  | .regWrite => false
  | .init => true
  | .setMode => false
  | .setConfig => false
  | .setFraming => false
  | .setHighPower => false
  | .transmit => false
  | .available => false
  | .readByte => false
  | .evEncode => true
  | .evSend => false
  | .evDecode => true
  | .lsEncode => true
  | .lsSend => false
  | .lsDecode => true

/-- R141: the phase checks, in their order. -/
def phaseRefusal (n : CmdName) (s : State) : Option Reason :=
  if s.phase = .busy then some .overlap
  else if s.phase = .failed then some .failed
  else if s.phase = .uninit ∧ admittedUninit n = false then some .notInit
  else none

/-- R141: the first check a command fails after its opcode was found: phase, operands, then the command's own checks. -/
def admission (i : Instr) (commandChecks : Option Reason) (s : State) : Option Reason :=
  firstRefusal [phaseRefusal i.name s, check (operandChecks i) .badOperand, commandChecks]

/-- R141: an admitted command starts: the block is BUSY and the step index is 0 (R33). -/
def startCommand (s : State) : State := { s with phase := .busy, stepIdx := 0 }

/-- R141: the phase after a command that returned. -/
def phaseAfter (n : CmdName) (before : Phase) : Phase := if n = .init then .ready else before

/-- R138, R141: the state after a command's rule has run. -/
def endCommand (n : CmdName) (before : Phase) : Res CmdResult → State
  | .ok r s => endOnReturn (phaseAfter n before) r s
  | .err e s => endOnError before e s

/-- R141 `Admit`, after the opcode was found: the one way every command runs. -/
def admitAndRun (i : Instr) (commandChecks : Option Reason) (body : State → Res CmdResult) (s : State) : State :=
  match admission i commandChecks s with
  | some r => refuse r s
  | none => endCommand i.name s.phase (body (startCommand s))

/-- The outcome of a command: always a next state. -/
def command (i : Instr) (commandChecks : Option Reason) (body : State → Res CmdResult) (s : State) :
    Host.Outcome State Fault Refusal :=
  .next (admitAndRun i commandChecks body s)

/-- R141 for a word whose opcode names a command and whose operand bytes are malformed (R83). -/
def refuseMalformed (n : CmdName) (s : State) : Host.Outcome State Fault Refusal :=
  match phaseRefusal n s with
  | some r => .next (refuse r s)
  | none => .next (refuse .badOperand s)

end Sys2Proof.Machine
end

