-- ==== Sys2Proof/Machine/Control.lean ====
section
/-! DEFINITION. Driver control: INIT (R93 to R95), SET_MODE (R96, R97), SET_HIGH_POWER (R98), AVAILABLE (R99) and READ_BYTE
(R100). -/

namespace Sys2Proof.Machine

/-! ## INIT -/

/-- R93 `ResetPulse()`. -/
def resetPulse (s : State) : State :=
  let s := resetRadio (setResetLine .high s)
  let s := wait s.cfg.tResetHigh s
  let s := setResetLine .low s
  wait s.cfg.tResetWait s

/-- R95, R43: what INIT clears in the block. -/
def clearOnInit (s : State) : State :=
  { s with
    modeMirror := none
    evAcc := []
    evLast := none
    lsAcc := []
    lsLast := none }

/-- R94 `Identify()`, with so many attempts left after this one: no wait after the last. -/
def identify : Nat → State → Res Unit
  | 0, s =>
    (regRead s.cfg.regs.version s).bind fun v s =>
      if v = s.cfg.versionExpected then .ok () s else .err (.hardwareInit v) s
  | n + 1, s =>
    (regRead s.cfg.regs.version s).bind fun v s =>
      if v = s.cfg.versionExpected then .ok () s else identify n (wait s.cfg.tIdRetry s)

/-- INIT (R95). -/
def execInit (s : State) : Host.Outcome State Fault Refusal :=
  command .init none
    (fun s => (identify (idAttempts - 1) (clearOnInit (resetPulse s))).bind fun _ s => .ok .done s) s

/-! ## SET_MODE -/

/-- R35: the mirror is set. -/
def setMirror (m : Option Mode) (s : State) : State := { s with modeMirror := m }

/-- R96 `PollModeReady()`, raising the requested mode (R136) when the deadline passes. -/
def pollModeReady (m : Mode) (s : State) : Res Unit :=
  (poll s.cfg.regs.irqflags1 (modeReady s.cfg) tModeTimeout tModePoll s.now
    (pollReads tModeTimeout tModePoll) s).bind fun seen s =>
      if seen then .ok () s else .err (.modeTimeout m) s

/-- R97 `SetMode(m)`. -/
def setMode (m : Mode) (s : State) : Res Unit :=
  (regRead s.cfg.regs.opmode s).bind fun v s =>
    if modeField s.cfg v = modeCode m then .ok () (setMirror (some m) s)
    else
      (regWrite s.cfg.regs.opmode [opmodeValue s.cfg v m] s).bind fun _ s =>
        (pollModeReady m (setMirror none s)).bind fun _ s => .ok () (setMirror (some m) s)

/-- SET_MODE (R97). -/
def execSetMode (m : Mode) (s : State) : Host.Outcome State Fault Refusal :=
  command (.setMode m) none (fun s => (setMode m s).bind fun _ s => .ok .done s) s

/-! ## SET_HIGH_POWER -/

/-- R98 `SetHighPower()`. -/
def setHighPower (s : State) : Res Unit :=
  (rmw s.cfg.regs.palevel 0xFF s.cfg.paBoostMask s).bind fun _ s =>
    rmw s.cfg.regs.ocp (0xFF &&& ~~~s.cfg.ocpOnMask) 0x00 s

/-- SET_HIGH_POWER (R98). -/
def execSetHighPower (s : State) : Host.Outcome State Fault Refusal :=
  command .setHighPower none (fun s => (setHighPower s).bind fun _ s => .ok .done s) s

/-! ## Receive polling -/

/-- AVAILABLE (R99). -/
def execAvailable (s : State) : Host.Outcome State Fault Refusal :=
  command .available none
    (fun s => (regRead s.cfg.availReg s).bind fun v s => .ok (.flag (availFlag s.cfg v)) s) s

/-- READ_BYTE (R100). -/
def execReadByte (s : State) : Host.Outcome State Fault Refusal :=
  command .readByte none (fun s => (regRead s.cfg.regs.fifo s).bind fun v s => .ok (.byte v) s) s

end Sys2Proof.Machine
end

