-- ==== Sys2Proof/Machine/RadioConf.lean ====
section
/-! DEFINITION. Radio configuration: SET_CONFIG (R101 to R110) and SET_FRAMING (R111). -/

namespace Sys2Proof.Machine

/-! ## SET_CONFIG -/

/-- R109: the deviation and the bandwidth are used only when both quantities are positive. -/
def usesDeviation (rc : RadioConfig) : Bool := decide (rc.bitRateBps > 0) && decide (rc.freqDeviationHz > 0)

/-- R90, R101 to R103, R52: the refusals of SET_CONFIG, in the order of its writes, all decided before any transfer. -/
def setConfigRefusal (c : Config) (rc : RadioConfig) : Option Reason :=
  firstRefusal
    [ check (decide (frfValue rc.carrierFreqHz < 2 ^ 24)) .valueRange
    , check (burstFits c c.regs.frf 3) .addrRange
    , check (decide (rc.bitRateBps = 0) || decide (brValue rc.bitRateBps < 2 ^ 16)) .valueRange
    , check (decide (rc.bitRateBps = 0) || burstFits c c.regs.bitrate 2) .addrRange
    , check (!usesDeviation rc || decide (fdValue rc.freqDeviationHz < 2 ^ 16)) .valueRange
    , check (!usesDeviation rc || burstFits c c.regs.fdev 2) .addrRange ]

/-- R108: one bandwidth register written. -/
def writeBwReg (a : Addr) (p : Nat × Nat) (s : State) : Res Unit :=
  match s.cfg.rxbwWrite with
  | .rmw => rmw a (bwKeepMask s.cfg) (bwBits s.cfg p) s
  | .full dcc => regWrite a [bwFullByte s.cfg dcc p] s

/-- R108 `WriteRxBw(m, e)`. -/
def writeRxBw (p : Nat × Nat) (s : State) : Res Unit :=
  (writeBwReg s.cfg.regs.rxbw p s).bind fun _ s =>
    if s.cfg.afcbwAlso then writeBwReg s.cfg.regs.afcbw p s else .ok () s

/-- R109: the bit rate is written when it is positive. -/
def writeBitRate (rc : RadioConfig) (s : State) : Res Unit :=
  if rc.bitRateBps > 0 then writeReg16 s.cfg.regs.bitrate (brValue rc.bitRateBps) s else .ok () s

/-- R105, R109: the bandwidth search after the deviation was written, and the write of its pair. -/
def searchAndWriteBw (rc : RadioConfig) (s : State) : Res Unit :=
  match bwSearch rc.freqDeviationHz rc.bitRateBps (isOok s.cfg rc.modulationFlags) with
  | none => .err (.bandwidthRange (bwTarget rc.freqDeviationHz rc.bitRateBps)) s
  | some p => writeRxBw p s

/-- R109: deviation and bandwidth, when both quantities are positive. -/
def writeDeviation (rc : RadioConfig) (s : State) : Res Unit :=
  if usesDeviation rc then
    (writeReg16 s.cfg.regs.fdev (fdValue rc.freqDeviationHz) s).bind fun _ s => searchAndWriteBw rc s
  else .ok () s

/-- R109 `SetConfig(cfg)`. -/
def setConfig (rc : RadioConfig) (s : State) : Res Unit :=
  (setMode .standby s).bind fun _ s =>
    (writeReg24 s.cfg.regs.frf (frfValue rc.carrierFreqHz) s).bind fun _ s =>
      (regWrite s.cfg.regs.datamodul [rc.modulationFlags] s).bind fun _ s =>
        (writeBitRate rc s).bind fun _ s => writeDeviation rc s

/-- SET_CONFIG (R109). -/
def execSetConfig (rc : RadioConfig) (s : State) : Host.Outcome State Fault Refusal :=
  command (.setConfig rc) (setConfigRefusal s.cfg rc) (fun s => (setConfig rc s).bind fun _ s => .ok .done s) s

/-! ## SET_FRAMING -/

/-- R52: the refusals of SET_FRAMING's bursts. Under the register map of R39 none arises. -/
def setFramingRefusal (c : Config) (fc : FramingConfig) : Option Reason :=
  firstRefusal
    [ check (burstFits c c.regs.preamble 2) .addrRange
    , check (burstFits c c.regs.syncvalue ((fc.syncWord.getD []).length)) .addrRange ]

/-- R111: sync detection on with its bytes, or off. -/
def writeSync (w : Option (List Byte)) (s : State) : Res Unit :=
  match w with
  | some bytes =>
    (regWrite s.cfg.regs.syncconfig [syncOnValue s.cfg bytes.length] s).bind fun _ s =>
      regWrite s.cfg.regs.syncvalue bytes s
  | none => regWrite s.cfg.regs.syncconfig [0x00] s

/-- R111 `SetFraming(cfg)`. -/
def setFraming (fc : FramingConfig) (s : State) : Res Unit :=
  (regWrite s.cfg.regs.packetconfig1 [fc.packetModeByte] s).bind fun _ s =>
    (regWrite s.cfg.regs.payloadlength [fc.fixedPayloadLength] s).bind fun _ s =>
      (writeReg16 s.cfg.regs.preamble fc.preambleLength.toNat s).bind fun _ s => writeSync fc.syncWord s

/-- SET_FRAMING (R111). -/
def execSetFraming (fc : FramingConfig) (s : State) : Host.Outcome State Fault Refusal :=
  command (.setFraming fc) (setFramingRefusal s.cfg fc) (fun s => (setFraming fc s).bind fun _ s => .ok .done s) s

end Sys2Proof.Machine
end

