-- ==== Sys2Proof/Machine/Transmit.lean ====
section
/-! DEFINITION. TRANSMIT (R112 to R116). -/

namespace Sys2Proof.Machine

/-- R112, R115: the refusals of TRANSMIT, in the order its rule writes them; an absent preamble has length 0. -/
def transmitRefusal (c : Config) (pre : Option (List Byte)) (payload : List Byte) : Option Reason :=
  firstRefusal
    [ check (decide (payload ≠ [])) .emptyPayload
    , check (decide ((pre.getD []).length + payload.length ≤ c.fifoSize)) .fifoOverflow ]

/-- R114: the optional return to STANDBY. A mode timeout in it is not reported (R142); the command fails with
`TransmitTimeoutError` either way. -/
def txTimeout (s : State) : Res Unit :=
  if s.cfg.txTimeoutRestoresStandby then
    match setMode .standby s with
    | .ok _ s => .err .transmitTimeout s
    | .err (.modeTimeout _) s => .err .transmitTimeout s
    | .err e s => .err e s
  else .err .transmitTimeout s

/-- R113 `PollPacketSent()`. -/
def pollPacketSent (s : State) : Res Unit :=
  (poll s.cfg.regs.irqflags2 (packetSent s.cfg) tTxTimeout s.cfg.tTxPoll.us s.now
    (pollReads tTxTimeout s.cfg.tTxPoll.us) s).bind fun seen s =>
      if seen then .ok () s else txTimeout s

/-- R115: the preamble burst, when there is one and it is not empty. -/
def pushPreamble (pre : Option (List Byte)) (s : State) : Res Unit :=
  match pre.getD [] with
  | [] => .ok () s
  | b :: bs => regWrite s.cfg.regs.fifo (b :: bs) s

/-- R115 `Transmit(pre?, payload)`. -/
def transmit (pre : Option (List Byte)) (payload : List Byte) (s : State) : Res Unit :=
  (setMode .standby s).bind fun _ s =>
    (pushPreamble pre s).bind fun _ s =>
      (regWrite s.cfg.regs.fifo payload s).bind fun _ s =>
        (setMode .tx s).bind fun _ s =>
          (pollPacketSent s).bind fun _ s => setMode .standby s

/-- TRANSMIT (R115). -/
def execTransmit (pre : Option (List Byte)) (payload : List Byte) (s : State) : Host.Outcome State Fault Refusal :=
  command (.transmit pre payload) (transmitRefusal s.cfg pre payload)
    (fun s => (transmit pre payload s).bind fun _ s => .ok .done s) s

end Sys2Proof.Machine
end

