-- ==== Sys2Proof/Machine/Ev1527.lean ====
section
/-! DEFINITION. The EV1527 codec: EV_ENCODE (R117 to R119), EV_SEND (R120), EV_DECODE (R121, R122). -/

namespace Sys2Proof.Machine

/-! ## Nibbles of a byte (R10) -/

/-- The high nibble `b[7:4]`. -/
def highNibble (b : Byte) : BitVec 4 := b.extractLsb' 4 4

/-- The low nibble `b[3:0]`. -/
def lowNibble (b : Byte) : BitVec 4 := b.extractLsb' 0 4

/-- A byte from its nibbles: `(hi << 4) | lo`. -/
def nibbles (hi lo : BitVec 4) : Byte := hi ++ lo

/-- The next value of a decoder's accumulation: `(v << 1) | bit`. -/
def shiftIn (v : Nat) (bit : Bool) : Nat := 2 * v + bit.toNat

/-- R49: the chips of bytes in the order the radio sends them, bit 7 of each byte first; `true` is a high chip. -/
def chips (bytes : List Byte) : List Bool :=
  bytes.flatMap fun b => [7, 6, 5, 4, 3, 2, 1, 0].map fun i => b.getLsbD i

/-! ## EV_ENCODE -/

/-- R76: the nibble of a code bit. -/
def evNibble (bit : Bool) : BitVec 4 := if bit then 0xE else 0x8

/-- R117, R119: data byte `k`, from code bits `23 - 2k` and `22 - 2k`. -/
def evDataByte (code : BitVec 32) (k : Nat) : Byte :=
  nibbles (evNibble (code.getLsbD (23 - 2 * k))) (evNibble (code.getLsbD (22 - 2 * k)))

/-- R119: the twelve data bytes. -/
def evData (code : BitVec 32) : List Byte := (List.range evFrameBytes).map (evDataByte code)

/-- R119: the payload, data then terminator. -/
def evPayload (code : BitVec 32) : List Byte := evData code ++ [evTerminator]

/-- EV_ENCODE (R119): pure, no transfer and no pin. -/
def execEvEncode (code : BitVec 32) (s : State) : Host.Outcome State Fault Refusal :=
  command (.evEncode code) none (fun s => .ok (.frame evPreamble (evPayload code)) s) s

/-! ## EV_SEND -/

/-- R120 `EV_CFG`. -/
def evConfig (c : Config) : RadioConfig where
  carrierFreqHz := carrierHz
  freqDeviationHz := deviationHz
  bitRateBps := c.evBitrateBps
  modulationFlags := c.modflagsOok

/-- R120: the framing a codec send writes, if `SEND_FRAMING` gives one. -/
def sendFraming (s : State) : Res Unit :=
  match s.cfg.sendFraming with
  | none => .ok () s
  | some f => setFraming f s

/-- R120, R140: the refusals of the framing nested in a codec send. -/
def sendFramingRefusal (c : Config) : Option Reason :=
  match c.sendFraming with
  | none => none
  | some f => firstRefusal [check f.wf .badOperand, setFramingRefusal c f]

/-- R120, R140: the refusals of the operations nested in EV_SEND, decided before its first transfer. -/
def evSendRefusal (c : Config) (code : BitVec 32) : Option Reason :=
  firstRefusal
    [ setConfigRefusal c (evConfig c)
    , sendFramingRefusal c
    , transmitRefusal c (some evPreamble) (evPayload code) ]

/-- EV_SEND (R120). -/
def execEvSend (code : BitVec 32) (s : State) : Host.Outcome State Fault Refusal :=
  command (.evSend code) (evSendRefusal s.cfg code)
    (fun s =>
      (setConfig (evConfig s.cfg) s).bind fun _ s =>
        (sendFraming s).bind fun _ s =>
          (transmit (some evPreamble) (evPayload code) s).bind fun _ s => .ok .done s) s

/-! ## EV_DECODE -/

/-- R80: a byte whose nibbles are each 0x8 or 0xE. -/
def evByteOk (b : Byte) : Bool :=
  (highNibble b == 0x8 || highNibble b == 0xE) && (lowNibble b == 0x8 || lowNibble b == 0xE)

/-- R121: the two bits of a data byte, shifted in most significant first. -/
def evShiftByte (v : Nat) (x : Byte) : Nat := shiftIn (shiftIn v (highNibble x == 0xE)) (lowNibble x == 0xE)

/-- R121: the value of an accumulated frame. -/
def evValue (acc : List Byte) : Nat := acc.foldl evShiftByte 0

/-- R122: the number of bits the decoder keeps. -/
def decodeBits : DecodeWidth → Nat
  | .w20 => 20
  | .w24 => 24

/-- R121: a byte whose time is earlier than the previous byte's is refused. -/
def timeOrderRefusal (last : Option Nat) (t : Nat) : Option Reason :=
  match last with
  | none => none
  | some u => check (decide (u ≤ t)) .timeOrder

/-- R121: the accumulation at time `t`, a partial frame being discarded when its gap exceeds the limit. -/
def accAt (limit : Option Nat) (acc : List Byte) (last : Option Nat) (t : Nat) : List Byte :=
  match limit, last with
  | some l, some u => if t - u > l then [] else acc
  | some _, none => acc
  | none, _ => acc

/-- R121 `EvDecode(b, t)`, after its refusal: the result and the new accumulation. -/
def evDecodeStep (width : DecodeWidth) (acc : List Byte) (last : Option Nat) (b : Byte) (t : Nat) :
    Option Nat × List Byte :=
  let kept := accAt (some tEvDecodeTimeout) acc last t
  if evByteOk b then
    let full := kept ++ [b]
    if full.length < evFrameBytes then (none, full)
    else (some (evValue full % 2 ^ decodeBits width), [])
  else (none, [])

/-- EV_DECODE (R121): no transfer. -/
def execEvDecode (b : Byte) (t : Nat) (s : State) : Host.Outcome State Fault Refusal :=
  command (.evDecode b t) (timeOrderRefusal s.evLast t)
    (fun s =>
      let r := evDecodeStep s.cfg.evDecodeWidth s.evAcc s.evLast b t
      .ok (.decoded r.1) { s with evAcc := r.2, evLast := some t }) s

end Sys2Proof.Machine
end

