-- ==== Sys2Proof/Machine/LightStrip.lean ====
section
/-! DEFINITION. The LightStrip codec: LS_ENCODE (R125 to R128), LS_SEND (R129 to R131), LS_DECODE (R132, R133), and the
caller-side brightness mapping (R135). -/

namespace Sys2Proof.Machine

/-! ## LS_ENCODE -/

/-- R125: seven bytes, all 0x00 except byte `LS_PRE_MARK`, which is 0x80. -/
def lsPreamble (c : Config) : List Byte :=
  (List.range lsPreambleLen).map fun i => if i = c.lsPreMark.val then 0x80 else 0x00

/-- R126: the marker nibble of a state. -/
def lsMark : Option LsState → BitVec 4
  | none => 0x0
  | some .on => lsMarkOn
  | some .off => lsMarkOff

/-- R126 `LsMarker(code, st)`: bits 24..0 of the code, bits 23..20 replaced by the marker. -/
def lsMarker (code : BitVec 32) (st : Option LsState) : BitVec 25 :=
  ((code.setWidth 25) &&& ~~~((0xF : BitVec 25) <<< 20)) ||| ((lsMark st).setWidth 25 <<< 20)

/-- R78: the nibble of a code bit. -/
def lsNibble (bit : Bool) : BitVec 4 := if bit then 0x7 else 0x4

/-- R127, R128: data byte `k`; the last one has only a high nibble. -/
def lsDataByte (c : BitVec 25) (k : Nat) : Byte :=
  nibbles (lsNibble (c.getLsbD (24 - 2 * k))) (if k < 12 then lsNibble (c.getLsbD (23 - 2 * k)) else 0x0)

/-- R128: the thirteen data bytes. -/
def lsData (code : BitVec 32) (st : Option LsState) : List Byte :=
  (List.range lsFrameBytes).map (lsDataByte (lsMarker code st))

/-- R128: the payload, data then terminator. -/
def lsPayload (code : BitVec 32) (st : Option LsState) : List Byte := lsData code st ++ [lsTerminator]

/-- LS_ENCODE (R128): pure, no transfer and no pin. -/
def execLsEncode (code : BitVec 32) (st : Option LsState) (s : State) : Host.Outcome State Fault Refusal :=
  command (.lsEncode code st) none (fun s => .ok (.frame (lsPreamble s.cfg) (lsPayload code st)) s) s

/-! ## LS_SEND -/

/-- R129 `LS_CFG`. -/
def lsConfig (c : Config) : RadioConfig where
  carrierFreqHz := carrierHz
  freqDeviationHz := deviationHz
  bitRateBps := c.lsBitrateBps
  modulationFlags := c.modflagsOok

/-- R79: the 21-byte frame. -/
def lsFrame (c : Config) (code : BitVec 32) (st : Option LsState) : List Byte := lsPreamble c ++ lsPayload code st

/-- R130 `CONCAT`: the payload of one TRANSMIT that carries the three frames. -/
def lsTriple (c : Config) (code : BitVec 32) (st : Option LsState) : List Byte :=
  lsFrame c code st ++ (lsFrame c code st ++ lsFrame c code st)

/-- R130, R112: the refusal of the nested TRANSMIT. -/
def lsTransmitRefusal (c : Config) (code : BitVec 32) (st : Option LsState) : Option Reason :=
  match c.lsRepeatStyle with
  | .separate => transmitRefusal c (some (lsPreamble c)) (lsPayload code st)
  | .concat => transmitRefusal c none (lsTriple c code st)

/-- R131, R140: the refusals of the operations nested in LS_SEND, decided before its first transfer. -/
def lsSendRefusal (c : Config) (code : BitVec 32) (st : Option LsState) : Option Reason :=
  firstRefusal
    [ setConfigRefusal c (lsConfig c)
    , sendFramingRefusal c
    , lsTransmitRefusal c code st ]

/-- R130, R131: so many TRANSMITs one after the other; an error ends them. -/
def transmitTimes (pre : Option (List Byte)) (payload : List Byte) : Nat → State → Res Unit
  | 0, s => .ok () s
  | n + 1, s => (transmit pre payload s).bind fun _ s => transmitTimes pre payload n s

/-- R130: the three repeats in the style of `LS_REPEAT_STYLE`. -/
def lsRepeats (code : BitVec 32) (st : Option LsState) (s : State) : Res Unit :=
  match s.cfg.lsRepeatStyle with
  | .separate => transmitTimes (some (lsPreamble s.cfg)) (lsPayload code st) lsRepeat s
  | .concat => transmit none (lsTriple s.cfg code st) s

/-- LS_SEND (R131). -/
def execLsSend (code : BitVec 32) (st : Option LsState) (s : State) : Host.Outcome State Fault Refusal :=
  command (.lsSend code st) (lsSendRefusal s.cfg code st)
    (fun s =>
      (setConfig (lsConfig s.cfg) s).bind fun _ s =>
        (sendFraming s).bind fun _ s =>
          (lsRepeats code st s).bind fun _ s => .ok .done s) s

/-! ## LS_DECODE -/

/-- R80: a byte whose high nibble is 0x4 or 0x7 and whose low nibble is 0x0, 0x4 or 0x7. -/
def lsByteOk (b : Byte) : Bool :=
  (highNibble b == 0x4 || highNibble b == 0x7) &&
  (lowNibble b == 0x0 || lowNibble b == 0x4 || lowNibble b == 0x7)

/-- R132: the bits of a data byte; a zero low nibble contributes none. -/
def lsShiftByte (v : Nat) (x : Byte) : Nat :=
  let hi := shiftIn v (highNibble x == 0x7)
  if lowNibble x = 0x0 then hi else shiftIn hi (lowNibble x == 0x7)

/-- R132: the value of an accumulated frame. -/
def lsValue (acc : List Byte) : Nat := acc.foldl lsShiftByte 0

/-- R132 `LsDecode(b, t)`, after its refusal: the result and the new accumulation. -/
def lsDecodeStep (timeout : Option Nat) (acc : List Byte) (last : Option Nat) (b : Byte) (t : Nat) :
    Option Nat × List Byte :=
  let kept := accAt timeout acc last t
  if lsByteOk b then
    let full := kept ++ [b]
    if full.length < lsFrameBytes then (none, full) else (some (lsValue full), [])
  else (none, [])

/-- LS_DECODE (R132): no transfer. -/
def execLsDecode (b : Byte) (t : Nat) (s : State) : Host.Outcome State Fault Refusal :=
  command (.lsDecode b t) (timeOrderRefusal s.lsLast t)
    (fun s =>
      let r := lsDecodeStep s.cfg.lsDecodeTimeout s.lsAcc s.lsLast b t
      .ok (.decoded r.1) { s with lsAcc := r.2, lsLast := some t }) s

/-! ## Brightness, caller-side (R135) -/

/-- R135: the 9-bit quantity `q = round(0x1FF * pct / 100)`. -/
def brightQuantity (pct : Nat) : Nat := roundDiv (0x1FF * pct) 100

/-- R135: the code's low byte, `q[7:0]`. -/
def brightLow (pct : Nat) : Byte := BitVec.ofNat 8 (brightQuantity pct)

/-- R135: `q < 0x100`. -/
def brightMark (pct : Nat) : Bool := decide (brightQuantity pct < 0x100)

/-- R135: the bits of the code the mapping determines, the marker where `BRIGHT_MARKER` puts it. R135 leaves open what a
position inside the low byte would mean, where two bits of the mapping meet; there the model sets the bit when either does.
Bits the mapping does not determine are 0 (DESIGN CHOICE for both, assumption 23). -/
def brightBits (c : Config) (pct : Nat) : BitVec 32 :=
  (brightLow pct).setWidth 32 |||
  (if brightMark pct = c.brightMarker.setWhenBelow then (1 : BitVec 32) <<< c.brightMarker.bit.val else 0)

end Sys2Proof.Machine
end

