-- ==== Sys2Proof/Machine/Spi.lean ====
section
/-! DEFINITION. Register transfers: REG_READ and REG_WRITE (R87, R88), and the order of a byte's bits on the bus (R27). -/

namespace Sys2Proof.Machine

/-- R26, R27: the bits of a transfer's bytes in the order they are shifted over MOSI or MISO; `true` is a high level. -/
def busBits (m : SpiMode) (bytes : List Byte) : List Bool :=
  bytes.flatMap fun b =>
    match m.order with
    | .msbFirst => [7, 6, 5, 4, 3, 2, 1, 0].map fun i => b.getLsbD i
    | .lsbFirst => [0, 1, 2, 3, 4, 5, 6, 7].map fun i => b.getLsbD i

/-- R87: the refusal of REG_READ. -/
def regReadRefusal (a : Byte) : Option Reason := check (addrInRange a) .addrRange

/-- R88: the refusals of REG_WRITE, in the order its rule writes them. -/
def regWriteRefusal (c : Config) (a : Byte) (data : List Byte) : Option Reason :=
  firstRefusal
    [ check (addrInRange a) .addrRange
    , check (decide (data ≠ [])) .emptyWrite
    , check (burstFits c (a.setWidth 7) data.length) .addrRange ]

/-- REG_READ (R87). -/
def execRegRead (a : Byte) (s : State) : Host.Outcome State Fault Refusal :=
  command (.regRead a) (regReadRefusal a)
    (fun s => (regRead (a.setWidth 7) s).bind fun v s => .ok (.byte v) s) s

/-- REG_WRITE (R88). -/
def execRegWrite (a : Byte) (data : List Byte) (s : State) : Host.Outcome State Fault Refusal :=
  command (.regWrite a data) (regWriteRefusal s.cfg a data)
    (fun s => (regWrite (a.setWidth 7) data s).bind fun _ s => .ok .done s) s

end Sys2Proof.Machine
end

