-- ==== Sys2Proof/Machine/Dispatch.lean ====
section
/-! DEFINITION. One arm per command: each calls its meaning. -/

namespace Sys2Proof.Machine

/-- The meaning of every command (R23, R82). -/
def exec (i : Instr) (s : State) : Host.Outcome State Fault Refusal :=
  match i with
  | .regRead a => Sys2Proof.Machine.execRegRead a s
  | .regWrite a data => Sys2Proof.Machine.execRegWrite a data s
  | .init => Sys2Proof.Machine.execInit s
  | .setMode m => Sys2Proof.Machine.execSetMode m s
  | .setConfig cfg => Sys2Proof.Machine.execSetConfig cfg s
  | .setFraming cfg => Sys2Proof.Machine.execSetFraming cfg s
  | .setHighPower => Sys2Proof.Machine.execSetHighPower s
  | .transmit pre payload => Sys2Proof.Machine.execTransmit pre payload s
  | .available => Sys2Proof.Machine.execAvailable s
  | .readByte => Sys2Proof.Machine.execReadByte s
  | .evEncode code => Sys2Proof.Machine.execEvEncode code s
  | .evSend code => Sys2Proof.Machine.execEvSend code s
  | .evDecode b t => Sys2Proof.Machine.execEvDecode b t s
  | .lsEncode code st => Sys2Proof.Machine.execLsEncode code st s
  | .lsSend code st => Sys2Proof.Machine.execLsSend code st s
  | .lsDecode b t => Sys2Proof.Machine.execLsDecode b t s

end Sys2Proof.Machine
end

