-- ==== Sys2Proof/Machine/Port.lean ====
section
/-! DEFINITION. The host port (R25): what the block does with the next word or power-on on it. -/

namespace Sys2Proof.Machine

/-- R141: a word is decoded; an opcode in the table leads to the command's admission, any other is refused `BAD_OPCODE`. -/
def runWord (word : List Byte) (s : State) : Host.Outcome State Fault Refusal :=
  match decode word with
  | .ok i => exec i s
  | .badOpcode => .next (refuse .badOpcode s)
  | .badOperand n => refuseMalformed n s

/-- R25: a word issued while the previous command was still running meets the block BUSY, and leaves `phase` as it was
(R140). -/
def runOverlapped (word : List Byte) (s : State) : Host.Outcome State Fault Refusal :=
  match runWord word { s with phase := .busy } with
  | .next t => .next { t with phase := s.phase }
  | .fault r => .fault r
  | .refused r => .refused r

/-- R43, R152: a power-on of the block. Every variable of R34 takes its power-on value; the time base goes on, and the radio,
an agent of its own, keeps what it holds (DESIGN CHOICE, assumption 18). -/
def powerOn (s : State) : State :=
  { s with
    phase := .uninit
    xferBusy := false
    modeMirror := none
    evAcc := []
    evLast := none
    lsAcc := []
    lsLast := none
    resetOut := .low
    nssOut := .high
    fatal := none
    refused := none
    stepIdx := 0 }

/-- R25: take the next call of the host. With no call the block waits (R152). The spec does not say how the time base runs
between commands or while the block waits; the model lets `now` stand there (DESIGN CHOICE, assumption 25): time passes in
transfers and waits alone. -/
def takeCall (s : State) : Host.Outcome State Fault Refusal :=
  match s.port with
  | [] => .next s
  | .issue word :: rest => runWord word { s with port := rest }
  | .overlap word :: rest => runOverlapped word { s with port := rest }
  | .powerOn :: rest => .next (powerOn { s with port := rest })

/-- The state with one more word at the head of the host port. -/
def putWord (word : List Byte) (s : State) : State := { s with port := .issue word :: s.port }

end Sys2Proof.Machine
end

