-- ==== Sys2Proof/Machine/Step.lean ====
section
/-! DEFINITION. One step of the machine: the next command on the host port, run to completion (R20). -/

namespace Sys2Proof.Machine

/-- One step. -/
def step (s : State) : Host.Outcome State Fault Refusal := takeCall s

/-- The state in which the next step runs the word `tableWord nbits w` (assumption 11). -/
def State.withFetchWord (s : State) (nbits w : Nat) : State := putWord (tableWord nbits w) s

end Sys2Proof.Machine
end

