-- ==== Sys2Proof/Machine/Assembly.lean ====
section
/-! DEFINITION. The notation of the spec's programs: how a command is written (R85), and the pseudo-commands with their
expansions (R86). Both are the host's; the block sees only command words. -/

namespace Sys2Proof.Machine

/-! ## Syntax (R85) -/

/-- One hexadecimal digit, for a value below 16. -/
def hexDigit (n : Nat) : Char := ("0123456789ABCDEF".toList).getD n '0'

/-- A byte in two hexadecimal digits. -/
def hexByte (b : Byte) : String := String.ofList [hexDigit (b.toNat / 16), hexDigit (b.toNat % 16)]

/-- Numbers are written in hexadecimal here, one of the two forms R85 allows; leading zeros up to a whole byte. -/
def hexNumber (width n : Nat) : String := "0x" ++ (beBytes width n).foldl (fun acc b => acc ++ hexByte b) ""

/-- A byte list: `[b0 b1 ...]`. -/
def byteListText (bs : List Byte) : String := "[" ++ String.intercalate " " (bs.map hexByte) ++ "]"

/-- An optional byte list: `-` where it is absent. -/
def optionalText (o : Option (List Byte)) : String :=
  match o with
  | none => "-"
  | some bs => byteListText bs

/-- Modes are written by name. -/
def modeText : Mode → String
  | .sleep => "SLEEP"
  | .standby => "STANDBY"
  | .fs => "FS"
  | .tx => "TX"
  | .rx => "RX"

/-- The LightStrip state: `ON`, `OFF` or `-`. -/
def lsStateText : Option LsState → String
  | none => "-"
  | some .on => "ON"
  | some .off => "OFF"

/-- The mnemonic of a command (R82). -/
def mnemonic : CmdName → String
  | .regRead => "REG_READ"
  | .regWrite => "REG_WRITE"
  | .init => "INIT"
  | .setMode => "SET_MODE"
  | .setConfig => "SET_CONFIG"
  | .setFraming => "SET_FRAMING"
  | .setHighPower => "SET_HIGH_POWER"
  | .transmit => "TRANSMIT"
  | .available => "AVAILABLE"
  | .readByte => "READ_BYTE"
  | .evEncode => "EV_ENCODE"
  | .evSend => "EV_SEND"
  | .evDecode => "EV_DECODE"
  | .lsEncode => "LS_ENCODE"
  | .lsSend => "LS_SEND"
  | .lsDecode => "LS_DECODE"

/-- The operands of a command as R85 writes them. -/
def operandTexts : Instr → List String
  | .regRead a => [hexNumber 1 a.toNat]
  | .regWrite a data => [hexNumber 1 a.toNat, byteListText data]
  | .init => []
  | .setMode m => [modeText m]
  | .setConfig c =>
    [hexNumber 4 c.carrierFreqHz, hexNumber 4 c.freqDeviationHz, hexNumber 4 c.bitRateBps,
      hexNumber 1 c.modulationFlags.toNat]
  | .setFraming c =>
    [hexNumber 1 c.packetModeByte.toNat, hexNumber 2 c.preambleLength.toNat, hexNumber 1 c.fixedPayloadLength.toNat,
      optionalText c.syncWord]
  | .setHighPower => []
  | .transmit pre payload => [optionalText pre, byteListText payload]
  | .available => []
  | .readByte => []
  | .evEncode code => [hexNumber 4 code.toNat]
  | .evSend code => [hexNumber 4 code.toNat]
  | .evDecode b t => [hexNumber 1 b.toNat, hexNumber 8 t]
  | .lsEncode code st => [hexNumber 4 code.toNat, lsStateText st]
  | .lsSend code st => [hexNumber 4 code.toNat, lsStateText st]
  | .lsDecode b t => [hexNumber 1 b.toNat, hexNumber 8 t]

/-- One line of a program: the mnemonic, then the operands separated by commas (R85). -/
def commandText (i : Instr) : String :=
  match operandTexts i with
  | [] => mnemonic i.name
  | ops => mnemonic i.name ++ " " ++ String.intercalate ", " ops

/-! ## Pseudo-commands (R86) -/

/-- The pseudo-commands. -/
inductive Pseudo
  | sleep
  | standby
  | listen
  | rmw (a andMask orMask : Byte)
  | write16 (a : Byte) (v : BitVec 16)
  | write24 (a : Byte) (v : BitVec 24)
  | boot
  deriving DecidableEq, Repr

/-- The commands a pseudo-command expands to, each given the byte the command before it returned (`RMW` writes back what its
REG_READ gave). -/
def Pseudo.expand : Pseudo → List (Byte → Instr)
  | .sleep => [fun _ => .setMode .sleep]
  | .standby => [fun _ => .setMode .standby]
  | .listen => [fun _ => .setMode .rx]
  | .rmw a andMask orMask => [fun _ => .regRead a, fun v => .regWrite a [(v &&& andMask) ||| orMask]]
  | .write16 a v => [fun _ => .regWrite a (msbFirst 2 v.toNat)]
  | .write24 a v => [fun _ => .regWrite a (msbFirst 3 v.toNat)]
  | .boot => [fun _ => .init, fun _ => .setHighPower, fun _ => .setMode .sleep]

/-- The byte the last command returned, if it returned one. -/
def lastByte (s : State) : Option Byte :=
  match s.replies.getLast? with
  | some (.result (.byte v)) => some v
  | some _ => none
  | none => none

/-- Run commands one after the other. `RMW`'s second command needs the byte of its first: where the first returned none (it
was refused or failed) the host has nothing to write and stops there (R89). -/
def runExpansion : List (Byte → Instr) → Byte → State → Host.Outcome State Fault Refusal
  | [], _, s => .next s
  | [f], v, s => exec (f v) s
  | f :: g :: fs, v, s =>
    match exec (f v) s with
    | .next t =>
      match f v with
      | .regRead _ =>
        match lastByte t with
        | some w => runExpansion (g :: fs) w t
        | none => .next t
      | _ => runExpansion (g :: fs) v t
    | .fault r => .fault r
    | .refused r => .refused r

/-- R86: a pseudo-command has no meaning but its expansion. -/
def runPseudo (p : Pseudo) (s : State) : Host.Outcome State Fault Refusal := runExpansion p.expand 0 s

end Sys2Proof.Machine
end

