-- ==== Sys2Proof/Safety.lean ====
section
/-! DEFINITION. What the claims about runs are stated in: the invariant between commands, what a bus command may never change,
the frames a trace may hold, and the registers a trace writes. -/

namespace Sys2Proof.Machine

/-- The bytes the block sent in an event; empty for a line change or a wait. -/
def sentBytes : Event → List Byte
  | .transfer mosi _ => mosi
  | .resetLine _ => []
  | .wait _ => []

/-- The bytes sent in each transfer of a trace, in order: the notation of the spec's vectors. -/
def sent : List Event → List (List Byte)
  | [] => []
  | .transfer mosi _ :: es => mosi :: sent es
  | .resetLine _ :: es => sent es
  | .wait _ :: es => sent es

/-- How many transfers a trace holds. -/
def transferCount (es : List Event) : Nat := (sent es).length

/-- MOSI bytes of a read frame (R64): an address with bit 7 clear, then 0x00. -/
def isReadFrame (mosi : List Byte) : Bool :=
  match mosi with
  | [h, z] => !h.getLsbD 7 && z == 0x00
  | _ => false

/-- MOSI bytes of a write frame (R65): bit 7 set, then at least one data byte. -/
def isWriteFrame (mosi : List Byte) : Bool :=
  match mosi with
  | h :: _ :: _ => h.getLsbD 7
  | _ => false

/-- An event that is a transfer is a read frame or a write frame, with one MISO byte in each byte slot (R26). -/
def framed : Event → Bool
  | .transfer mosi miso => (isReadFrame mosi || isWriteFrame mosi) && mosi.length == miso.length
  | .resetLine _ => true
  | .wait _ => true

/-- The radio registers a transfer writes (R47, R65): for a write frame the addresses of its burst, none for a burst to the
FIFO port, whose address does not advance and is no storage byte (R45, R88). -/
def writtenAddrs (c : Config) : Event → List Nat
  | .transfer (h :: data) _ =>
    if h.getLsbD 7 ∧ (h.setWidth 7 : Addr) ≠ c.regs.fifo then
      (List.range data.length).map fun i => (h.setWidth 7 : Addr).toNat + i
    else []
  | .transfer [] _ => []
  | .resetLine _ => []
  | .wait _ => []

/-- The state variables that no bus activity of a command touches (everything but `phase`, the pins and `mode_mirror` of the
transfers, the trace, the time and the radio), and the parameters. -/
structure BusFrame (s t : State) : Prop where
  evAcc   : t.evAcc = s.evAcc
  evLast  : t.evLast = s.evLast
  lsAcc   : t.lsAcc = s.lsAcc
  lsLast  : t.lsLast = s.lsLast
  resetOut : t.resetOut = s.resetOut
  fatal   : t.fatal = s.fatal
  refused : t.refused = s.refused
  port    : t.port = s.port
  cfg     : t.cfg = s.cfg

/-- A command made no bus activity at all: no pin, no event, no time, no radio, no parameter changed. -/
structure NoBus (s t : State) : Prop where
  xferBusy : t.xferBusy = s.xferBusy
  nssOut   : t.nssOut = s.nssOut
  resetOut : t.resetOut = s.resetOut
  trace    : t.trace = s.trace
  now      : t.now = s.now
  radio    : t.radio = s.radio
  delays   : t.delays = s.delays
  choices  : t.choices = s.choices
  port     : t.port = s.port
  cfg      : t.cfg = s.cfg

/-- What holds between commands. -/
structure Inv (s : State) : Prop where
  /-- `phase = BUSY` holds exactly while a command runs (R34). -/
  notBusy  : s.phase ≠ .busy
  /-- No transfer is in flight (R91). -/
  noXfer   : s.xferBusy = false
  /-- NSS is high between transfers (R26). -/
  nssHigh  : s.nssOut = .high
  /-- RESET is low except during the pulse (R28). -/
  resetLow : s.resetOut = .low
  /-- The step index is discarded when a command ends (R33). -/
  idxZero  : s.stepIdx = 0
  /-- `ev_acc` has length 0..11 (R34). -/
  evLen    : s.evAcc.length ≤ 11
  /-- `ev_acc` holds data bytes only (R80, R121). -/
  evBytes  : ∀ b ∈ s.evAcc, evByteOk b = true
  /-- A byte that was kept has an arrival time (R121). -/
  evTime   : s.evAcc ≠ [] → s.evLast ≠ none
  /-- `ls_acc` has length 0..12 (R34). -/
  lsLen    : s.lsAcc.length ≤ 12
  /-- `ls_acc` holds data bytes only (R80, R132). -/
  lsBytes  : ∀ b ∈ s.lsAcc, lsByteOk b = true
  /-- A byte that was kept has an arrival time (R132). -/
  lsTime   : s.lsAcc ≠ [] → s.lsLast ≠ none
  /-- The block is FAILED exactly when a fatal error put it there (R138). -/
  failed   : s.phase = .failed ↔ s.fatal ≠ none
  /-- That error is HardwareInitError: ConcurrentTransferError is unreachable (R92). -/
  fatalIs  : s.fatal = none ∨ s.fatal = some .hardwareInit
  /-- Before INIT the block knows no radio mode (R34, R141). -/
  mirror   : s.phase = .uninit → s.modeMirror = none
  /-- The radio's register file keeps its canonical form. -/
  memory   : Memory.wf s.radio.regs = true

/-! ## Traces as the rules write them -/

/-- A step of a rule as the spec writes it: a read that answered `v`, a write, a wait, a change of the RESET line. -/
inductive Op
  | read (a : Addr) (v : Byte)
  | write (a : Addr) (data : List Byte)
  | wait (us : Nat)
  | line (level : Level)
  deriving DecidableEq, Repr

/-- An event is the step a rule writes: the frames of R64 and R65, the answer in the second slot of a read, the other MISO
bytes anything. -/
def Op.describes (o : Op) (e : Event) : Prop :=
  match o, e with
  | .read a v, .transfer mosi miso => mosi = [a.setWidth 8, 0x00] ∧ ∃ i0, miso = [i0, v]
  | .write a data, .transfer mosi miso => mosi = (0x80 ||| a.setWidth 8) :: data ∧ miso.length = data.length + 1
  | .wait n, .wait m => m = n
  | .line l, .resetLine k => k = l
  | _, _ => False

/-- The events are the steps, in order, and no others. -/
def Described (ops : List Op) (es : List Event) : Prop := List.Forall₂ Op.describes ops es

/-- The events of a bounded poll (R96, R113): reads of the flag register with the flag clear, each but the last followed by a
wait of the period, until a read that shows the flag set (`true`) or the poll gives up (`false`). -/
inductive PollTrace (reg : Addr) (flag : Byte → Bool) (period : Nat) : Bool → List Event → Prop
  | hit {v : Byte} {e : Event} (he : (Op.read reg v).describes e) (hv : flag v = true) : PollTrace reg flag period true [e]
  | giveUp {v : Byte} {e : Event} (he : (Op.read reg v).describes e) (hv : flag v = false) :
    PollTrace reg flag period false [e]
  | again {v : Byte} {e : Event} {seen : Bool} {es : List Event} (he : (Op.read reg v).describes e) (hv : flag v = false)
    (h : PollTrace reg flag period seen es) : PollTrace reg flag period seen (e :: .wait period :: es)

/-- A bus command returned `r` after the events `es`: it changed nothing of the block but its trace, its reply, the pins it
leaves idle, and perhaps `mode_mirror`. -/
structure Returned (s t : State) (r : CmdResult) (es : List Event) : Prop where
  phase    : t.phase = s.phase
  xferBusy : t.xferBusy = false
  nssOut   : t.nssOut = .high
  stepIdx  : t.stepIdx = 0
  replies  : t.replies = s.replies ++ [.result r]
  trace    : t.trace = s.trace ++ es
  frame    : BusFrame s t

/-- A bus command ended on an error `e` that is not fatal, after the events `es`. -/
structure Raised (s t : State) (e : CmdError) (es : List Event) : Prop where
  phase    : t.phase = s.phase
  xferBusy : t.xferBusy = false
  nssOut   : t.nssOut = .high
  stepIdx  : t.stepIdx = 0
  replies  : t.replies = s.replies ++ [.error e]
  trace    : t.trace = s.trace ++ es
  frame    : BusFrame s t

/-- The radio is any radio that gives these answers to its next reads, in this order (R37). -/
def Answers (s : State) (vs : List Byte) : Prop :=
  s.radio.kind = .oracle ∧ ∃ rest, s.radio.answers = vs ++ rest

/-! ## When commands run -/

/-- The block is READY and no transfer is in flight: what a radio command needs to be admitted and to reach the bus (R141,
R91). -/
def Ready (s : State) : Prop := s.phase = .ready ∧ s.xferBusy = false

/-- The phases in which the codecs' pure commands are admitted (R141). -/
def CodecPhase (s : State) : Prop := s.phase = .ready ∨ s.phase = .uninit

/-- The checks of R83 on the operand bytes of a command word, format by format (R81). -/
def WordOk (n : CmdName) (ops : List Byte) : Prop :=
  match n.format with
  | .N => ops = []
  | .A => ops.length = 1
  | .W => ∃ a k data, ops = a :: k :: data ∧ data.length = k.toNat ∧ 1 ≤ k.toNat
  | .M => ∃ m, ops = [m] ∧ m.toNat ≤ 4
  | .C => ops.length = 13
  | .F => ∃ pm p0 p1 fixed sp len sync, ops = pm :: p0 :: p1 :: fixed :: sp :: len :: sync ∧
      sync.length = len.toNat ∧ len.toNat ≤ 8 ∧ (sp = 0 ∨ sp = 1 ∧ 1 ≤ len.toNat)
  | .T => ∃ pp plen pre qlen payload, ops = pp :: plen :: (pre ++ qlen :: payload) ∧
      pre.length = plen.toNat ∧ payload.length = qlen.toNat ∧ (pp = 0 ∨ pp = 1)
  | .E => ops.length = 4
  | .L => ∃ st code, ops = st :: code ∧ st.toNat ≤ 2 ∧ code.length = 4
  | .D => ops.length = 9

/-- The least time the waits of a trace take (R19 b, R32). -/
def waitTotal : List Event → Nat
  | [] => 0
  | .transfer _ _ :: es => waitTotal es
  | .resetLine _ :: es => waitTotal es
  | .wait us :: es => us + waitTotal es

/-- The bandwidth of a pair, an exact rational (R105). -/
def bandwidth (ook : Bool) (p : Nat × Nat) : ℚ := 32000000 / ((p.1 : ℚ) * 2 ^ (p.2 + if ook then 3 else 2))

/-! ## The steps of the composite rules -/

/-- The steps of INIT for a radio that answers the wrong values `bad` before the expected one (R93, R94). -/
def initOps (c : Config) (bad : List Byte) : List Op :=
  [.line .high, .wait c.tResetHigh, .line .low, .wait c.tResetWait] ++
  bad.flatMap (fun b => [.read c.regs.version b, .wait c.tIdRetry]) ++ [.read c.regs.version c.versionExpected]

/-- The steps of a change to mode `m` from a radio that answers `v` and then is ready at once with `r` (R97). -/
def modeOps (c : Config) (m : Mode) (v r : Byte) : List Op :=
  if modeField c v = modeCode m then [.read c.regs.opmode v]
  else [.read c.regs.opmode v, .write c.regs.opmode [opmodeValue c v m], .read c.regs.irqflags1 r]

/-- The radio is in the mode already, or shows ModeReady on the first read after the write (R96, R97). -/
def ModeGood (c : Config) (m : Mode) (v r : Byte) : Prop := modeField c v = modeCode m ∨ modeReady c r = true

/-- The answers those steps read. -/
def modeAnswers (c : Config) (m : Mode) (v r : Byte) : List Byte := if modeField c v = modeCode m then [v] else [v, r]

/-- The steps that write one bandwidth register (R108), `w` the value read where the register is read first. -/
def bwRegOps (c : Config) (a : Addr) (p : Nat × Nat) (w : Byte) : List Op :=
  match c.rxbwWrite with
  | .rmw => [.read a w, .write a [(w &&& bwKeepMask c) ||| bwBits c p]]
  | .full dcc => [.write a [bwFullByte c dcc p]]

/-- The steps that write the bandwidth (R108). -/
def bwOps (c : Config) (p : Nat × Nat) (w w' : Byte) : List Op :=
  bwRegOps c c.regs.rxbw p w ++ (if c.afcbwAlso then bwRegOps c c.regs.afcbw p w' else [])

/-- A register address the reference radio answers for from its register file: none of the FIFO port, VERSION and the two IRQ
flag registers (R38). -/
def PlainRegister (c : Config) (a : Nat) : Prop :=
  ∀ r ∈ [c.regs.fifo, c.regs.version, c.regs.irqflags1, c.regs.irqflags2], r.toNat ≠ a

/-- The answers those steps read. -/
def bwAnswers (c : Config) (w w' : Byte) : List Byte :=
  match c.rxbwWrite with
  | .rmw => w :: (if c.afcbwAlso then [w'] else [])
  | .full _ => []

/-- The steps of SET_CONFIG before the bandwidth, from a radio that answers `v` to the mode read and, where that is not
STANDBY, is ready at once with `r` (R109). -/
def configHeadOps (c : Config) (rc : RadioConfig) (v r : Byte) : List Op :=
  modeOps c .standby v r ++
  [.write c.regs.frf (msbFirst 3 (frfValue rc.carrierFreqHz)), .write c.regs.datamodul [rc.modulationFlags]] ++
  (if rc.bitRateBps > 0 then [.write c.regs.bitrate (msbFirst 2 (brValue rc.bitRateBps))] else []) ++
  (if rc.bitRateBps > 0 ∧ rc.freqDeviationHz > 0 then
    [.write c.regs.fdev (msbFirst 2 (fdValue rc.freqDeviationHz))] else [])

/-- The steps of SET_CONFIG (R109) with the pair the search gives, if any. -/
def configOps (c : Config) (rc : RadioConfig) (v r w w' : Byte) : List Op :=
  configHeadOps c rc v r ++
  (if rc.bitRateBps > 0 ∧ rc.freqDeviationHz > 0 then
    match bwSearch rc.freqDeviationHz rc.bitRateBps (isOok c rc.modulationFlags) with
    | none => []
    | some p => bwOps c p w w'
  else [])

/-- The answers SET_CONFIG reads from such a radio. -/
def configAnswers (c : Config) (rc : RadioConfig) (v r w w' : Byte) : List Byte :=
  modeAnswers c .standby v r ++ (if rc.bitRateBps > 0 ∧ rc.freqDeviationHz > 0 then bwAnswers c w w' else [])

/-- The quantities of a RadioConfig that SET_CONFIG accepts (R101, R102, R103) and for which the bandwidth search succeeds
(R107). -/
def ConfigInRange (c : Config) (rc : RadioConfig) : Prop :=
  rc.wf = true ∧ rc.carrierFreqHz ≤ 1023999969 ∧ (rc.bitRateBps = 0 ∨ 489 ≤ rc.bitRateBps) ∧
  (rc.bitRateBps = 0 ∨ rc.freqDeviationHz ≤ 3999969) ∧
  (rc.bitRateBps > 0 → rc.freqDeviationHz > 0 →
    max rc.freqDeviationHz (2 * rc.bitRateBps) < (if isOok c rc.modulationFlags then 250000 else 500000))

/-- The steps of SET_FRAMING (R111). -/
def framingOps (c : Config) (f : FramingConfig) : List Op :=
  [.write c.regs.packetconfig1 [f.packetModeByte], .write c.regs.payloadlength [f.fixedPayloadLength],
    .write c.regs.preamble (msbFirst 2 f.preambleLength.toNat)] ++
  (match f.syncWord with
   | some w => [.write c.regs.syncconfig [syncOnValue c w.length], .write c.regs.syncvalue w]
   | none => [.write c.regs.syncconfig [0x00]])

/-- The steps a codec send makes for `SEND_FRAMING` (R120). -/
def sendFramingOps (c : Config) : List Op :=
  match c.sendFraming with
  | none => []
  | some f => framingOps c f

/-- The answers of a radio to one TRANSMIT that goes through at once: for each of its three mode changes the value of the mode
read and the mode-ready answer, and the packet-sent answer (R115). -/
structure TxAnswers where
  opmode1 : Byte
  ready1  : Byte
  opmode2 : Byte
  ready2  : Byte
  sent    : Byte
  opmode3 : Byte
  ready3  : Byte
  deriving DecidableEq, Repr

/-- The answers in the order they are read. -/
def TxAnswers.list (c : Config) (q : TxAnswers) : List Byte :=
  modeAnswers c .standby q.opmode1 q.ready1 ++ modeAnswers c .tx q.opmode2 q.ready2 ++ [q.sent] ++
  modeAnswers c .standby q.opmode3 q.ready3

/-- Every poll succeeds on its first read (R116). -/
def TxAnswers.Good (c : Config) (q : TxAnswers) : Prop :=
  ModeGood c .standby q.opmode1 q.ready1 ∧ ModeGood c .tx q.opmode2 q.ready2 ∧ packetSent c q.sent = true ∧
  ModeGood c .standby q.opmode3 q.ready3

/-- The steps of one TRANSMIT that goes through at once (R115). -/
def transmitOps (c : Config) (pre : Option (List Byte)) (payload : List Byte) (q : TxAnswers) : List Op :=
  modeOps c .standby q.opmode1 q.ready1 ++
  (if pre.getD [] = [] then [] else [.write c.regs.fifo (pre.getD [])]) ++
  [.write c.regs.fifo payload] ++ modeOps c .tx q.opmode2 q.ready2 ++ [.read c.regs.irqflags2 q.sent] ++
  modeOps c .standby q.opmode3 q.ready3

/-! ## Streams fed to the decoders -/

/-- The host feeds bytes with their arrival times to EV_DECODE, one command each. -/
def feedEv : List (Byte × Nat) → State → Host.Outcome State Fault Refusal
  | [], s => .next s
  | p :: ps, s =>
    match exec (.evDecode p.1 p.2) s with
    | .next t => feedEv ps t
    | .fault r => .fault r
    | .refused r => .refused r

/-- The host feeds bytes with their arrival times to LS_DECODE, one command each. -/
def feedLs : List (Byte × Nat) → State → Host.Outcome State Fault Refusal
  | [], s => .next s
  | p :: ps, s =>
    match exec (.lsDecode p.1 p.2) s with
    | .next t => feedLs ps t
    | .fault r => .fault r
    | .refused r => .refused r

end Sys2Proof.Machine
end

