-- ==== Sys2Proof/Certificates/Slice0/Obligations.lean ====
section
/-! DEFINITION. The statements for the provers, each with the rule or section of spec/ it formalises. `Ready`, `Returned`,
`Described`, `Answers` and the traces of the composite rules are defined in Safety.lean. -/

open Sys2Proof Sys2Proof.Machine

/-! ## Command words -/

/-- 30_encoding.md section 4: the word of a well-formed command spells that command, with every operand at every value. -/
def Obligations.DecodeReadsBackEncode : Prop :=
  ∀ i : Instr, i.wf = true → decode (encode i) = .ok i

/-- 30_encoding.md section 4: a word that spells a command is that command's own word, except where an absent operand's bytes
are ignored (formats F and T, assumption 9); the command it spells is spelled by its own word in every case. -/
def Obligations.EncodeWritesBackDecode : Prop :=
  ∀ (w : List Byte) (i : Instr), decode w = .ok i →
    decode (encode i) = .ok i ∧ (i.name.format ≠ .F → i.name.format ≠ .T → encode i = w)

/-- Words of 95_test_vectors.md section 2 and of its programs in section 3 (the words of EV_SEND, LS_SEND and EV_DECODE), one
of each opcode, and the commands they stand for. -/
def Obligations.ListedWordsDecode : Prop :=
  decode [0x01, 0x10] = .ok (.regRead 0x10) ∧
  decode [0x02, 0x07, 0x03, 0x6C, 0x7A, 0xE1] = .ok (.regWrite 0x07 [0x6C, 0x7A, 0xE1]) ∧
  decode [0x10] = .ok .init ∧
  decode [0x11, 0x03] = .ok (.setMode .tx) ∧
  decode [0x12, 0x19, 0xDD, 0x18, 0x00, 0x00, 0x00, 0xC3, 0x50, 0x00, 0x00, 0x0A, 0xF0, 0x08] =
    .ok (.setConfig { carrierFreqHz := 433920000, freqDeviationHz := 50000, bitRateBps := 2800,
                      modulationFlags := 0x08 }) ∧
  decode [0x13, 0x10, 0x00, 0x03, 0x40, 0x01, 0x01, 0x2D] =
    .ok (.setFraming { packetModeByte := 0x10, preambleLength := 3, fixedPayloadLength := 64, syncWord := some [0x2D] }) ∧
  decode [0x14] = .ok .setHighPower ∧
  decode [0x15, 0x00, 0x00, 0x01, 0xAA] = .ok (.transmit none [0xAA]) ∧
  decode [0x16] = .ok .available ∧
  decode [0x17] = .ok .readByte ∧
  decode [0x20, 0x00, 0x01, 0x23, 0x45] = .ok (.evEncode 0x12345) ∧
  decode [0x21, 0x00, 0x01, 0x23, 0x45] = .ok (.evSend 0x12345) ∧
  decode [0x22, 0x88, 0x00, 0x00, 0x00, 0x00, 0x00, 0x00, 0x03, 0xE8] = .ok (.evDecode 0x88 1000) ∧
  decode [0x30, 0x01, 0x00, 0x01, 0x23, 0x45] = .ok (.lsEncode 0x12345 (some .on)) ∧
  decode [0x31, 0x01, 0x00, 0x00, 0x00, 0xFF] = .ok (.lsSend 0xFF (some .on)) ∧
  decode [0x32, 0x44, 0x00, 0x00, 0x00, 0x00, 0x00, 0x00, 0x00, 0x00] = .ok (.lsDecode 0x44 0)

/-- R82: the opcode table, row by row, and the refusal of every opcode byte that is not in it. -/
def Obligations.OpcodeTable : Prop :=
  (CmdName.all.map fun n => (n.opcode, mnemonic n, n.format)) =
    [ (0x01, "REG_READ", .A), (0x02, "REG_WRITE", .W), (0x10, "INIT", .N), (0x11, "SET_MODE", .M),
      (0x12, "SET_CONFIG", .C), (0x13, "SET_FRAMING", .F), (0x14, "SET_HIGH_POWER", .N), (0x15, "TRANSMIT", .T),
      (0x16, "AVAILABLE", .N), (0x17, "READ_BYTE", .N), (0x20, "EV_ENCODE", .E), (0x21, "EV_SEND", .E),
      (0x22, "EV_DECODE", .D), (0x30, "LS_ENCODE", .L), (0x31, "LS_SEND", .L), (0x32, "LS_DECODE", .D) ] ∧
  (∀ n : CmdName, nameOfOpcode n.opcode = some n) ∧
  (∀ (op : Byte) (ops : List Byte) (s : State) (rest : List HostCall),
    op ∉ ([0x01, 0x02, 0x10, 0x11, 0x12, 0x13, 0x14, 0x15, 0x16, 0x17, 0x20, 0x21, 0x22, 0x30, 0x31, 0x32] : List Byte) →
    s.port = .issue (op :: ops) :: rest → step s = .next (refuse .badOpcode { s with port := rest }))

/-- R83: the checks a command word must pass, and what happens to one that fails them in a block that would otherwise look at
its operands: the refusal `BAD_OPERAND` and no effect. `L = 0` with `sp = 0` is the absent sync word, and code bits above the
codec's width are ignored by the encoder. That a word whose flag says absent is well formed with bytes of the absent operand
(`sp = 0` with L > 0, `pp = 0` with P > 0) is the model's choice, log entry 9. -/
def Obligations.WordChecks : Prop :=
  ∀ (n : CmdName) (ops : List Byte),
    (WordOk n ops ↔ ∃ i, decode (n.opcode :: ops) = .ok i ∧ i.wf = true ∧ i.name = n) ∧
    (¬ WordOk n ops → ∀ s : State, s.phase = .ready →
      runWord (n.opcode :: ops) s =
        .next { s with refused := some .badOperand, replies := s.replies ++ [.refusal .badOperand] }) ∧
    (∀ pm p0 p1 fixed : Byte, ∃ c : FramingConfig, decode [0x13, pm, p0, p1, fixed, 0, 0] = .ok (.setFraming c) ∧
      c.syncWord = none) ∧
    (∀ c d : BitVec 32, (∀ k, k < 24 → c.getLsbD k = d.getLsbD k) → evPayload c = evPayload d) ∧
    (∀ (c d : BitVec 32) (st : Option LsState), (∀ k, k < 25 → c.getLsbD k = d.getLsbD k) → lsPayload c st = lsPayload d st)

/-- 60_exceptions.md section 2: the order of the checks that every command passes before its own. -/
def Obligations.AdmissionOrder : Prop :=
  ∀ s : State,
    (∀ i : Instr,
      (s.phase = .busy → exec i s = .next (refuse .overlap s)) ∧
      (s.phase = .failed → exec i s = .next (refuse .failed s)) ∧
      (s.phase = .uninit → i.name ∉ [.init, .evEncode, .lsEncode, .evDecode, .lsDecode] →
        exec i s = .next (refuse .notInit s)) ∧
      (s.phase = .ready ∨ s.phase = .uninit ∧ i.name ∈ [.init, .evEncode, .lsEncode, .evDecode, .lsDecode] →
        i.wf = false → exec i s = .next (refuse .badOperand s))) ∧
    (∀ (w : List Byte) (n : CmdName), decode w = .badOperand n →
      (s.phase = .busy → runWord w s = .next (refuse .overlap s)) ∧
      (s.phase = .failed → runWord w s = .next (refuse .failed s)) ∧
      (s.phase = .uninit → n ∉ [.init, .evEncode, .lsEncode, .evDecode, .lsDecode] →
        runWord w s = .next (refuse .notInit s)) ∧
      (s.phase = .ready ∨ s.phase = .uninit ∧ n ∈ [.init, .evEncode, .lsEncode, .evDecode, .lsDecode] →
        runWord w s = .next (refuse .badOperand s)))

/-! ## Steps and outcomes -/

/-- 10_state.md section 1 and 70_reset_and_hazards.md section 1: a step takes the next word of the host and runs the command it
spells; with no word the block waits (that time stands meanwhile is the model's choice, log entry 25). That a program comes
word by word over the port, and that a word laid down by `withFetchWord` is the next word, is the model's reading, log
entry 11. -/
def Obligations.StepRunsDecodedCommand : Prop :=
  (∀ (s : State) (w : List Byte) (rest : List HostCall) (i : Instr), s.port = .issue w :: rest → decode w = .ok i →
    step s = exec i { s with port := rest }) ∧
  (∀ s : State, s.port = [] → step s = .next s) ∧
  (∀ (s : State) (nbits w : Nat) (i : Instr), decodeTableWord nbits w = some i →
    step (s.withFetchWord nbits w) = exec i s)

/-- 60_exceptions.md sections 1 and 2: the block never stops; what the spec calls an error (section 1) or a refusal (section 2)
ends a command, not the machine. That each is a next state of the model is the model's reading, log entry 12. -/
def Obligations.EveryStepAnswersNext : Prop :=
  (∀ s : State, ∃ t, step s = .next t) ∧ (∀ (i : Instr) (s : State), ∃ t, exec i s = .next t)

/-- 10_state.md section 1: each command ends with exactly one outcome, and takes one word from the port. -/
def Obligations.OneOutcomePerCommand : Prop :=
  ∀ (s t : State) (w : List Byte) (rest : List HostCall), s.port = .issue w :: rest ∨ s.port = .overlap w :: rest →
    step s = .next t → (∃ r, t.replies = s.replies ++ [r]) ∧ t.port = rest

/-- 60_exceptions.md section 2: a refused command has no effect on any state but `refused`. -/
def Obligations.RefusalHasNoOtherEffect : Prop :=
  ∀ (w : List Byte) (s t : State) (r : Reason), runWord w s = .next t → t.replies = s.replies ++ [.refusal r] →
    t = { s with refused := some r, replies := s.replies ++ [.refusal r] }

/-- 60_exceptions.md sections 2 and 3: a word issued while a command runs is refused `OVERLAP`, every word in FAILED is refused
`FAILED` (an unknown opcode `BAD_OPCODE` in both), and only a power-on leaves FAILED. -/
def Obligations.OverlapAndFailedRefuse : Prop :=
  ∀ (s : State) (w : List Byte) (rest : List HostCall),
    (s.port = .overlap w :: rest →
      step s = .next (refuse (if decode w = .badOpcode then .badOpcode else .overlap) { s with port := rest })) ∧
    (s.port = .issue w :: rest → s.phase = .failed →
      step s = .next (refuse (if decode w = .badOpcode then .badOpcode else .failed) { s with port := rest })) ∧
    (∀ t, s.phase = .failed → step s = .next t → t.phase ≠ .failed → s.port.head? = some .powerOn)

/-- 10_state.md section 2 and 60_exceptions.md section 2: a command leaves `phase` as it found it, except an INIT that succeeds
and a command that ends on a fatal error; no command ends in BUSY that did not meet it. -/
def Obligations.PhaseChanges : Prop :=
  ∀ (i : Instr) (s t : State), exec i s = .next t →
    t.phase = s.phase ∨
    (i = .init ∧ t.phase = .ready ∧ t.replies = s.replies ++ [.result .done]) ∨
    (t.phase = .failed ∧ ∃ e, e.isFatal = true ∧ t.replies = s.replies ++ [.error e] ∧ t.fatal = some e.code)

/-- 60_exceptions.md section 1: which command can end on which error, and what is recorded with it. -/
def Obligations.ErrorsByCommand : Prop :=
  ∀ (i : Instr) (s t : State) (e : CmdError), s.xferBusy = false → exec i s = .next t →
    t.replies = s.replies ++ [.error e] →
    match e with
    | .hardwareInit v => i = .init ∧ v ≠ s.cfg.versionExpected
    | .modeTimeout m =>
      i = .setMode m ∨ (m = .standby ∧ ∃ rc, i = .setConfig rc) ∨
      ((m = .standby ∨ m = .tx) ∧
        ((∃ pre payload, i = .transmit pre payload) ∨ (∃ code, i = .evSend code) ∨ ∃ code st, i = .lsSend code st))
    | .transmitTimeout =>
      (∃ pre payload, i = .transmit pre payload) ∨ (∃ code, i = .evSend code) ∨ ∃ code st, i = .lsSend code st
    | .bandwidthRange target =>
      (∃ rc, i = .setConfig rc ∧ target = max rc.freqDeviationHz (2 * rc.bitRateBps) ∧
        target ≥ if isOok s.cfg rc.modulationFlags then 250000 else 500000) ∨
      (∃ code, i = .evSend code ∧ target = max 50000 (2 * s.cfg.evBitrateBps) ∧ target ≥ 250000) ∨
      (∃ code st, i = .lsSend code st ∧ target = max 50000 (2 * s.cfg.lsBitrateBps) ∧ target ≥ 250000)
    | .concurrentTransfer => False

/-- 60_exceptions.md section 1 and 10_state.md section 2: the error codes, and how a command that ends on an error leaves the
block. Whatever command it was, and whichever of its mode changes timed out, `ModeTimeoutError` leaves the mirror UNKNOWN. -/
def Obligations.ErrorEndsCommand : Prop :=
  ([ErrorCode.hardwareInit, .modeTimeout, .transmitTimeout, .bandwidthRange, .concurrentTransfer, .invalidCode].map
    ErrorCode.number = [1, 2, 3, 4, 5, 6]) ∧
  (∀ e : CmdError, e.isFatal = true ↔ e.code.number = 1 ∨ e.code.number = 5) ∧
  (∀ (i : Instr) (s t : State) (e : CmdError), exec i s = .next t → t.replies = s.replies ++ [.error e] →
    t.stepIdx = 0 ∧ t.refused = s.refused ∧ t.port = s.port ∧ t.cfg = s.cfg ∧
    (e.isFatal = true → t.phase = .failed ∧ t.fatal = some e.code) ∧
    (e.isFatal = false → t.phase = s.phase ∧ t.fatal = s.fatal) ∧
    (∀ m, e = .modeTimeout m → t.modeMirror = none))

/-! ## Register transfers -/

/-- 40_spi.md: REG_READ of any register completes with one read frame, whatever the radio answers, and its result is the second
byte of the answer; a read of the FIFO port pops. The block's other state and the radio's registers are unchanged. On the
reference radio (10_state.md section 3), a vector radio and no rule about the chip, a plain register answers what its register
file holds, and the VERSION register the expected revision. -/
def Obligations.RegReadReturnsAnswer : Prop :=
  ∀ (s : State) (a : Byte), Ready s → a.toNat ≤ 0x7F →
    ∃ t es v, exec (.regRead a) s = .next t ∧ Returned s t (.byte v) es ∧ Described [.read (a.setWidth 7) v] es ∧
      t.modeMirror = s.modeMirror ∧ t.radio.kind = s.radio.kind ∧ (∀ b, Memory.get b t.radio.regs = Memory.get b s.radio.regs) ∧
      (s.radio.kind = .oracle → ∀ x xs, s.radio.answers = x :: xs → v = x ∧ t.radio.answers = xs) ∧
      (s.radio.kind = .reference → ∀ x xs, a.setWidth 7 = s.cfg.regs.fifo → s.radio.fifo = x :: xs →
        v = x ∧ t.radio.fifo = xs) ∧
      (s.radio.kind = .reference → a.setWidth 7 ≠ s.cfg.regs.fifo → t.radio.fifo = s.radio.fifo) ∧
      (s.radio.kind = .reference → PlainRegister s.cfg a.toNat → v = s.radio.reg a.toNat) ∧
      (s.radio.kind = .reference → a.setWidth 7 = s.cfg.regs.version → s.cfg.regs.version ≠ s.cfg.regs.fifo →
        v = s.cfg.versionExpected)

/-- R66: an address operand above 0x7F, and a write of no data byte, are refused before any transfer. On the command port the
empty write already fails the operand check of R83, so a REG_WRITE of no data is refused `BAD_OPERAND` there (R141). -/
def Obligations.AddressRangeRefused : Prop :=
  (∀ (s : State) (a : Byte), s.phase = .ready → 0x80 ≤ a.toNat → exec (.regRead a) s = .next (refuse .addrRange s)) ∧
  (∀ (s : State) (a : Byte) (data : List Byte), s.phase = .ready → 0x80 ≤ a.toNat → 1 ≤ data.length → data.length ≤ 255 →
    exec (.regWrite a data) s = .next (refuse .addrRange s)) ∧
  (∀ (c : Config) (a : Byte), a.toNat ≤ 0x7F → regWriteRefusal c a [] = some .emptyWrite) ∧
  (∀ (s : State) (a : Byte), s.phase = .ready → exec (.regWrite a []) s = .next (refuse .badOperand s))

/-- R52: a burst past the top of the register space is refused, the FIFO port's excepted, and no command makes one: every
write frame a command sends goes to the FIFO port or ends inside the register space. -/
def Obligations.BurstStaysInSpace : Prop :=
  (∀ (s : State) (a : Byte) (data : List Byte), s.phase = .ready → a.toNat ≤ 0x7F → 1 ≤ data.length → data.length ≤ 255 →
    0x7F < a.toNat + data.length - 1 → a.setWidth 7 ≠ s.cfg.regs.fifo →
    exec (.regWrite a data) s = .next (refuse .addrRange s)) ∧
  (∀ (i : Instr) (s t : State) (es : List Event) (h : Byte) (data miso : List Byte), exec i s = .next t →
    t.trace = s.trace ++ es → Event.transfer (h :: data) miso ∈ es → h.getLsbD 7 = true →
    data ≠ [] ∧ ((h.setWidth 7 : Addr) = s.cfg.regs.fifo ∨ (h.setWidth 7 : Addr).toNat + data.length - 1 ≤ 0x7F))

/-- 40_spi.md: REG_WRITE completes with one write frame. On the reference radio the bytes land at rising addresses and no other
register changes; at the FIFO port they are pushed. Away from the port, a write that puts the TX code into OPMODE's mode field
empties that radio's FIFO and every other write leaves it (10_state.md section 3); that a burst from below OPMODE counts when
it reaches it is the model's choice, log entry 14. -/
def Obligations.RegWriteSendsFrame : Prop :=
  ∀ (s : State) (a : Byte) (data : List Byte), Ready s → a.toNat ≤ 0x7F → 1 ≤ data.length → data.length ≤ 255 →
    (a.setWidth 7 = s.cfg.regs.fifo ∨ a.toNat + data.length ≤ 0x80) →
    ∃ t es, exec (.regWrite a data) s = .next t ∧ Returned s t .done es ∧ Described [.write (a.setWidth 7) data] es ∧
      t.modeMirror = s.modeMirror ∧
      (s.radio.kind = .oracle → t.radio = s.radio) ∧
      (s.radio.kind = .reference → a.setWidth 7 = s.cfg.regs.fifo →
        t.radio.fifo = s.radio.fifo ++ data ∧ t.radio.regs = s.radio.regs) ∧
      (∀ b, b < a.toNat ∨ a.toNat + data.length ≤ b → Memory.get b t.radio.regs = Memory.get b s.radio.regs) ∧
      (s.radio.kind = .reference → a.setWidth 7 ≠ s.cfg.regs.fifo → Memory.wf s.radio.regs = true →
        ∀ k, k < data.length → Memory.get (a.toNat + k) t.radio.regs = data[k]?) ∧
      (s.radio.kind = .reference → a.setWidth 7 ≠ s.cfg.regs.fifo →
        (∀ k v, a.toNat + k = s.cfg.regs.opmode.toNat → data[k]? = some v → modeField s.cfg v = modeCode .tx →
          t.radio.fifo = []) ∧
        ((∀ k v, a.toNat + k = s.cfg.regs.opmode.toNat → data[k]? = some v → modeField s.cfg v ≠ modeCode .tx) →
          t.radio.fifo = s.radio.fifo))

/-- 40_spi.md: a command whose first transfer meets a transfer in flight makes no bus transfer and fails the block. -/
def Obligations.OverlappingTransferIsFatal : Prop :=
  ∀ (i : Instr) (s t : State), s.phase = .ready → s.xferBusy = true →
    i.name ∉ [.evEncode, .evDecode, .lsEncode, .lsDecode] → exec i s = .next t →
    (∃ es, t.trace = s.trace ++ es ∧ sent es = []) ∧
    ((∃ r, t.replies = s.replies ++ [.refusal r]) ∨
     (t.replies = s.replies ++ [.error .concurrentTransfer] ∧ t.phase = .failed ∧ t.fatal = some .concurrentTransfer))

/-- 40_spi.md: between commands no transfer is in flight, and from such a state no command reaches `ConcurrentTransferError`. -/
def Obligations.ConcurrentTransferUnreachable : Prop :=
  ∀ s t : State, Inv s → step s = .next t →
    t.xferBusy = false ∧ t.fatal ≠ some .concurrentTransfer ∧ t.replies ≠ s.replies ++ [.error .concurrentTransfer]

/-- 30_encoding.md section 1 and 20_memory.md section 5: a command only adds to the trace, and every transfer it adds is a read
frame or a write frame with one MISO byte in each slot. -/
def Obligations.EveryTransferIsAFrame : Prop :=
  ∀ (i : Instr) (s t : State), exec i s = .next t →
    ∃ es, t.trace = s.trace ++ es ∧ ∀ e ∈ es, framed e = true

/-- 20_memory.md sections 1 and 2: the frame of every command but INIT on the radio's registers. A register that no write frame
of the command covers holds what it held, at every address, what is known of it and its very byte; a burst to the FIFO port
covers none, so TRANSMIT and the codec sends leave alone the registers above the port. -/
def Obligations.MemoryFrame : Prop :=
  ∀ (i : Instr) (s t : State) (es : List Event), i ≠ .init → exec i s = .next t → t.trace = s.trace ++ es →
    ∀ a : Nat, (∀ e ∈ es, a ∉ writtenAddrs s.cfg e) →
      Memory.get a t.radio.regs = Memory.get a s.radio.regs ∧ t.radio.reg a = s.radio.reg a

/-- 10_state.md section 3: the reference radio, a vector radio and no rule about the chip, returns the last value written to a
plain register; and two reads of a plain register in a row return the same byte, whether or not anything was written there or
the spec lists a reset value for it (which byte an unlisted one holds is a free value, log entry 7). -/
def Obligations.ReferenceReadback : Prop :=
  (∀ (s : State) (a : Byte) (data : List Byte) (k : Nat), Ready s → s.radio.kind = .reference →
    Memory.wf s.radio.regs = true → data.length ≤ 255 → k < data.length → a.toNat + data.length ≤ 0x80 →
    a.setWidth 7 ≠ s.cfg.regs.fifo → PlainRegister s.cfg (a.toNat + k) →
    ∃ t u v, exec (.regWrite a data) s = .next t ∧ exec (.regRead (a + BitVec.ofNat 8 k)) t = .next u ∧
      data[k]? = some v ∧ u.replies = t.replies ++ [.result (.byte v)]) ∧
  (∀ (s : State) (a : Byte), Ready s → s.radio.kind = .reference → a.toNat ≤ 0x7F → PlainRegister s.cfg a.toNat →
    ∃ t u v, exec (.regRead a) s = .next t ∧ exec (.regRead a) t = .next u ∧
      t.replies = s.replies ++ [.result (.byte v)] ∧ u.replies = t.replies ++ [.result (.byte v)])

/-! ## INIT -/

/-- 41_driver_control.md section 1: INIT on a radio that identifies itself at the first, second or third read. -/
def Obligations.InitCompletes : Prop :=
  ∀ (s : State) (bad : List Byte), s.phase = .ready ∨ s.phase = .uninit → s.xferBusy = false →
    (bad.length ≤ 2 ∧ s.cfg.versionExpected ∉ bad ∧ Answers s (bad ++ [s.cfg.versionExpected])) ∨
      (bad = [] ∧ s.radio.kind = .reference ∧ s.cfg.regs.version ≠ s.cfg.regs.fifo) →
    ∃ t es, exec .init s = .next t ∧ t.trace = s.trace ++ es ∧ Described (initOps s.cfg bad) es ∧
      t.phase = .ready ∧ t.modeMirror = none ∧ t.evAcc = [] ∧ t.evLast = none ∧ t.lsAcc = [] ∧ t.lsLast = none ∧
      t.resetOut = .low ∧ t.nssOut = .high ∧ t.xferBusy = false ∧ t.stepIdx = 0 ∧
      t.fatal = s.fatal ∧ t.refused = s.refused ∧ t.port = s.port ∧ t.cfg = s.cfg ∧
      t.replies = s.replies ++ [.result .done] ∧
      (s.radio.kind = .reference → ∀ a, Memory.get a t.radio.regs = radioResetByte a) ∧
      (s.radio.kind = .oracle → t.radio.regs = s.radio.regs)

/-- 41_driver_control.md section 1: three mismatches end INIT with `HardwareInitError` and the last value read; there is no
wait after the third, and the block is FAILED. -/
def Obligations.InitFailsAfterThreeMismatches : Prop :=
  ∀ (s : State) (b1 b2 b3 : Byte), s.phase = .ready ∨ s.phase = .uninit → s.xferBusy = false →
    s.cfg.versionExpected ∉ [b1, b2, b3] → Answers s [b1, b2, b3] →
    ∃ t es, exec .init s = .next t ∧ t.trace = s.trace ++ es ∧
      Described ([.line .high, .wait s.cfg.tResetHigh, .line .low, .wait s.cfg.tResetWait,
        .read s.cfg.regs.version b1, .wait s.cfg.tIdRetry, .read s.cfg.regs.version b2, .wait s.cfg.tIdRetry,
        .read s.cfg.regs.version b3]) es ∧
      t.phase = .failed ∧ t.fatal = some .hardwareInit ∧ t.replies = s.replies ++ [.error (.hardwareInit b3)] ∧
      t.modeMirror = none ∧ t.evAcc = [] ∧ t.evLast = none ∧ t.lsAcc = [] ∧ t.lsLast = none ∧
      t.resetOut = .low ∧ t.nssOut = .high ∧ t.xferBusy = false ∧ t.stepIdx = 0 ∧
      t.refused = s.refused ∧ t.port = s.port ∧ t.cfg = s.cfg

/-! ## Modes -/

/-- 41_driver_control.md section 2: SET_MODE of the radio's own mode is one read; any other mode is a read, the mode write, and
the mode-ready read that shows the flag. The mirror is the mode. -/
def Obligations.SetModeAtFirstPoll : Prop :=
  ∀ (s : State) (m : Mode) (v r : Byte), Ready s → ModeGood s.cfg m v r → Answers s (modeAnswers s.cfg m v r) →
    ∃ t es, exec (.setMode m) s = .next t ∧ Returned s t .done es ∧ Described (modeOps s.cfg m v r) es ∧
      t.modeMirror = some m ∧ t.radio.regs = s.radio.regs

/-- 41_driver_control.md section 2: SET_MODE with any radio. It returns with the mirror at the mode, or it ends with
`ModeTimeoutError` not earlier than 1 s after it began, with the mirror UNKNOWN and the block READY; it reads the mode-ready flag
at most 1001 times. -/
def Obligations.SetModeEndsReadyOrTimesOut : Prop :=
  ∀ (s : State) (m : Mode), Ready s →
    ∃ t es, exec (.setMode m) s = .next t ∧
      ((Returned s t .done es ∧ t.modeMirror = some m ∧
          ((∃ v, modeField s.cfg v = modeCode m ∧ Described [.read s.cfg.regs.opmode v] es) ∨
           (∃ v head poll, modeField s.cfg v ≠ modeCode m ∧ es = head ++ poll ∧
              Described [.read s.cfg.regs.opmode v, .write s.cfg.regs.opmode [opmodeValue s.cfg v m]] head ∧
              PollTrace s.cfg.regs.irqflags1 (modeReady s.cfg) 1000 true poll ∧ transferCount poll ≤ 1001))) ∨
       (Raised s t (.modeTimeout m) es ∧ t.modeMirror = none ∧ s.now + 1000000 ≤ t.now ∧
          ∃ v head poll, modeField s.cfg v ≠ modeCode m ∧ es = head ++ poll ∧
              Described [.read s.cfg.regs.opmode v, .write s.cfg.regs.opmode [opmodeValue s.cfg v m]] head ∧
              PollTrace s.cfg.regs.irqflags1 (modeReady s.cfg) 1000 false poll ∧ transferCount poll ≤ 1001))

/-- R68: a mode write puts the code in the mode field and keeps every other bit of the value read; under the default field it
is `(old & 0xE3) | (code << 2)`. -/
def Obligations.OpmodeWriteValue : Prop :=
  (∀ (c : Config) (old : Byte) (m : Mode), c.fields.mode.val + 3 ≤ 8 →
    modeField c (opmodeValue c old m) = modeCode m ∧
    ∀ k, k < c.fields.mode.val ∨ c.fields.mode.val + 3 ≤ k → (opmodeValue c old m).getLsbD k = old.getLsbD k) ∧
  (∀ (c : Config) (old : Byte) (m : Mode), c.fields.mode = 2 → opmodeValue c old m = (old &&& 0xE3) ||| (modeCode m <<< 2)) ∧
  [Mode.sleep, .standby, .fs, .tx, .rx].map modeCode = [0, 1, 2, 3, 4]

/-- 41_driver_control.md section 3: SET_HIGH_POWER completes with two read-modify-writes, PA first, whatever the radio answers. -/
def Obligations.SetHighPowerCompletes : Prop :=
  ∀ s : State, Ready s →
    ∃ t es p q, exec .setHighPower s = .next t ∧ Returned s t .done es ∧
      Described [.read s.cfg.regs.palevel p, .write s.cfg.regs.palevel [p ||| s.cfg.paBoostMask],
        .read s.cfg.regs.ocp q, .write s.cfg.regs.ocp [q &&& ~~~s.cfg.ocpOnMask]] es ∧
      t.modeMirror = s.modeMirror ∧ (∀ x y, Answers s [x, y] → p = x ∧ q = y)

/-- 41_driver_control.md section 4: AVAILABLE and READ_BYTE complete with one read, whatever the radio answers; READ_BYTE pops
the FIFO. -/
def Obligations.ReceivePolling : Prop :=
  ∀ s : State, Ready s →
    (∃ t es v, exec .available s = .next t ∧ Returned s t (.flag (v.getLsbD s.cfg.availBit)) es ∧
      Described [.read s.cfg.availReg v] es ∧ t.modeMirror = s.modeMirror ∧ t.radio.regs = s.radio.regs ∧
      ∀ x, Answers s [x] → v = x) ∧
    (∃ t es v, exec .readByte s = .next t ∧ Returned s t (.byte v) es ∧ Described [.read s.cfg.regs.fifo v] es ∧
      t.modeMirror = s.modeMirror ∧ t.radio.regs = s.radio.regs ∧ (∀ x, Answers s [x] → v = x) ∧
      (s.radio.kind = .reference → ∀ x xs, s.radio.fifo = x :: xs → v = x ∧ t.radio.fifo = xs))

/-! ## Register arithmetic -/

/-- R12: the rounding, that frequencies never meet a tie, and the seven bit rates that do. -/
def Obligations.RoundingHalvesUp : Prop :=
  (∀ num den : Nat, 0 < den → roundDiv num den = ⌊(num : ℚ) / den + 1 / 2⌋₊) ∧
  (∀ f n : Nat, (f : ℚ) / (32000000 / 2 ^ 19) ≠ n + 1 / 2) ∧
  (∀ b : Nat, 0 < b → ((∃ n : Nat, (32000000 : ℚ) / b = n + 1 / 2) ↔
    b ∈ [64000000, 12800000, 2560000, 512000, 102400, 20480, 4096]))

/-- R101: the carrier frequency value, when it fits 24 bits, and the refusal where it does not. A
SET_CONFIG that completes has written it, most significant byte first. -/
def Obligations.CarrierValue : Prop :=
  (∀ f : Nat, frfValue f = ⌊(f : ℚ) / (32000000 / 2 ^ 19) + 1 / 2⌋₊) ∧
  (∀ f : Nat, frfValue f < 2 ^ 24 ↔ f ≤ 1023999969) ∧
  (∀ (s : State) (rc : RadioConfig), s.phase = .ready → rc.wf = true → 1023999969 < rc.carrierFreqHz →
    exec (.setConfig rc) s = .next (refuse .valueRange s)) ∧
  (∀ f n : Nat, (f : ℚ) / (32000000 / 2 ^ 19) ≠ n + 1 / 2) ∧
  (∀ (s t : State) (rc : RadioConfig) (es : List Event), exec (.setConfig rc) s = .next t → t.trace = s.trace ++ es →
    t.replies = s.replies ++ [.result .done] →
    ((0x80 : Byte) ||| s.cfg.regs.frf.setWidth 8) :: msbFirst 3 (frfValue rc.carrierFreqHz) ∈ sent es) ∧
  frfValue 433920000 = 0x6C7AE1

/-- R102: the bit-rate value, when it fits 16 bits, the refusal where it does not, and the value 0 above 64 MHz. A
SET_CONFIG that completes has written it when the bit rate is positive. -/
def Obligations.BitRateValue : Prop :=
  (∀ b : Nat, 0 < b → brValue b = ⌊(32000000 : ℚ) / b + 1 / 2⌋₊) ∧
  (∀ b : Nat, 0 < b → (brValue b < 2 ^ 16 ↔ 489 ≤ b)) ∧
  (∀ (s : State) (rc : RadioConfig), s.phase = .ready → configOk s.cfg = true → rc.wf = true → 0 < rc.bitRateBps →
    rc.bitRateBps < 489 → exec (.setConfig rc) s = .next (refuse .valueRange s)) ∧
  (∀ b : Nat, 64000000 < b → brValue b = 0 ∧ msbFirst 2 (brValue b) = [0, 0]) ∧
  (∀ (s t : State) (rc : RadioConfig) (es : List Event), exec (.setConfig rc) s = .next t → t.trace = s.trace ++ es →
    t.replies = s.replies ++ [.result .done] → 0 < rc.bitRateBps →
    ((0x80 : Byte) ||| s.cfg.regs.bitrate.setWidth 8) :: msbFirst 2 (brValue rc.bitRateBps) ∈ sent es) ∧
  (∀ b ∈ [64000000, 12800000, 2560000, 512000, 102400, 20480, 4096], ∃ n : Nat, (32000000 : ℚ) / b = n + 1 / 2) ∧
  brValue 4096 = 7813 ∧ brValue 2800 = 0x2CA5 ∧ brValue 2700 = 0x2E4C ∧ brValue 3700 = 0x21C9

/-- R103: the deviation value, when it fits 16 bits, the refusal where it does not, and that it is not checked when the bit rate
is 0. A SET_CONFIG that completes has written it when both quantities are positive. -/
def Obligations.DeviationValue : Prop :=
  (∀ d : Nat, fdValue d = ⌊(d : ℚ) / (32000000 / 2 ^ 19) + 1 / 2⌋₊) ∧
  (∀ d : Nat, fdValue d < 2 ^ 16 ↔ d ≤ 3999969) ∧
  (∀ (s : State) (rc : RadioConfig), s.phase = .ready → configOk s.cfg = true → rc.wf = true → 0 < rc.bitRateBps →
    3999969 < rc.freqDeviationHz → exec (.setConfig rc) s = .next (refuse .valueRange s)) ∧
  (∀ (c : Config) (rc : RadioConfig) (d : Nat), rc.bitRateBps = 0 →
    setConfigRefusal c { rc with freqDeviationHz := d } = setConfigRefusal c rc) ∧
  (∀ (s t : State) (rc : RadioConfig) (es : List Event), exec (.setConfig rc) s = .next t → t.trace = s.trace ++ es →
    t.replies = s.replies ++ [.result .done] → 0 < rc.bitRateBps → 0 < rc.freqDeviationHz →
    ((0x80 : Byte) ||| s.cfg.regs.fdev.setWidth 8) :: msbFirst 2 (fdValue rc.freqDeviationHz) ∈ sent es) ∧
  fdValue 50000 = 819

/-- R106: along the search the bandwidth strictly increases, so the pair found is the one of smallest bandwidth that exceeds the
target; every earlier pair's does not. With it the search as R105 writes it, and the targets for which it finds nothing. -/
def Obligations.BandwidthSearchIsSmallest : Prop :=
  (bwPairs = [(24, 7), (20, 7), (16, 7), (24, 6), (20, 6), (16, 6), (24, 5), (20, 5), (16, 5), (24, 4), (20, 4), (16, 4)] ++
    [(24, 3), (20, 3), (16, 3), (24, 2), (20, 2), (16, 2), (24, 1), (20, 1), (16, 1), (24, 0), (20, 0), (16, 0)]) ∧
  (∀ ook : Bool, bwPairs.Pairwise fun p q => bandwidth ook p < bandwidth ook q) ∧
  (∀ (fdev br : Nat) (ook : Bool) (p : Nat × Nat), bwSearch fdev br ook = some p →
    p ∈ bwPairs ∧ ((max fdev (2 * br) : Nat) : ℚ) < bandwidth ook p ∧
    (∀ q ∈ bwPairs, ((max fdev (2 * br) : Nat) : ℚ) < bandwidth ook q → bandwidth ook p ≤ bandwidth ook q) ∧
    ∀ before after, bwPairs = before ++ p :: after → ∀ q ∈ before, bandwidth ook q ≤ ((max fdev (2 * br) : Nat) : ℚ)) ∧
  (∀ (fdev br : Nat) (ook : Bool),
    bwSearch fdev br ook = none ↔ max fdev (2 * br) ≥ if ook then 250000 else 500000)

/-- 42_driver_config.md section 1 and 30_encoding.md section 2: the bandwidth register as written by read-modify-write holds the
pair in its fields and keeps its other bits; under the default positions the low five bits are `(mc << 3) | e`. As written
whole it is, under the default positions, `(d << 5) | (mc << 3) | e`, and a SET_CONFIG that completes has sent that byte; at
any disjoint positions it holds the constant, the code and the exponent in their fields. That both writes follow the fields at
positions other than the default ones is the model's choice, log entry 13. With it the mantissa codes, and the
sync-configuration byte: under the default positions, and at any disjoint positions of its two fields no other bit set. -/
def Obligations.BandwidthFieldKeepsOtherBits : Prop :=
  (∀ (c : Config) (old : Byte), configOk c = true → ∀ p ∈ bwPairs,
    fieldGet c.fields.rxbwMant 2 ((old &&& bwKeepMask c) ||| bwBits c p) = BitVec.ofNat 8 ((p.1 - 16) / 4) ∧
    fieldGet c.fields.rxbwExp 3 ((old &&& bwKeepMask c) ||| bwBits c p) = BitVec.ofNat 8 p.2 ∧
    ∀ k, ¬ (c.fields.rxbwMant.val ≤ k ∧ k < c.fields.rxbwMant.val + 2) →
      ¬ (c.fields.rxbwExp.val ≤ k ∧ k < c.fields.rxbwExp.val + 3) →
      ((old &&& bwKeepMask c) ||| bwBits c p).getLsbD k = old.getLsbD k) ∧
  (∀ (c : Config) (old : Byte), c.fields = defaultFieldMap → ∀ p ∈ bwPairs,
    (old &&& bwKeepMask c) ||| bwBits c p = (old &&& 0xE0) ||| BitVec.ofNat 8 ((p.1 - 16) / 4 * 8 + p.2)) ∧
  (∀ (c : Config) (d : BitVec 3), c.fields = defaultFieldMap → ∀ p ∈ bwPairs,
    bwFullByte c d p = BitVec.ofNat 8 (d.toNat * 32 + (p.1 - 16) / 4 * 8 + p.2)) ∧
  (∀ (c : Config) (d : BitVec 3), configOk c = true →
    fieldMask c.fields.rxbwDcc 3 &&& (fieldMask c.fields.rxbwMant 2 ||| fieldMask c.fields.rxbwExp 3) = 0 → ∀ p ∈ bwPairs,
    fieldGet c.fields.rxbwDcc 3 (bwFullByte c d p) = d.setWidth 8 ∧
    fieldGet c.fields.rxbwMant 2 (bwFullByte c d p) = BitVec.ofNat 8 ((p.1 - 16) / 4) ∧
    fieldGet c.fields.rxbwExp 3 (bwFullByte c d p) = BitVec.ofNat 8 p.2) ∧
  (∀ (s t : State) (rc : RadioConfig) (d : BitVec 3) (es : List Event), exec (.setConfig rc) s = .next t →
    t.trace = s.trace ++ es → t.replies = s.replies ++ [.result .done] → 0 < rc.bitRateBps → 0 < rc.freqDeviationHz →
    s.cfg.rxbwWrite = .full d → s.cfg.fields = defaultFieldMap →
    ∃ p, bwSearch rc.freqDeviationHz rc.bitRateBps (isOok s.cfg rc.modulationFlags) = some p ∧
      ∀ a, a = s.cfg.regs.rxbw ∨ s.cfg.afcbwAlso = true ∧ a = s.cfg.regs.afcbw →
        [(0x80 : Byte) ||| a.setWidth 8, BitVec.ofNat 8 (d.toNat * 32 + (p.1 - 16) / 4 * 8 + p.2)] ∈ sent es) ∧
  ([16, 20, 24].map mantissaCode = [0, 1, 2]) ∧
  (∀ c : Config, c.fields = defaultFieldMap → ∀ len, 1 ≤ len → len ≤ 8 →
    syncOnValue c len = 0x80 ||| BitVec.ofNat 8 ((len - 1) * 8)) ∧
  (∀ c : Config, configOk c = true → fieldMask c.fields.syncOn 1 &&& fieldMask c.fields.syncSize 3 = 0 →
    ∀ len, 1 ≤ len → len ≤ 8 →
      (syncOnValue c len).getLsbD c.fields.syncOn = true ∧
      fieldGet c.fields.syncSize 3 (syncOnValue c len) = BitVec.ofNat 8 (len - 1) ∧
      ∀ k, k ≠ c.fields.syncOn.val → ¬ (c.fields.syncSize.val ≤ k ∧ k < c.fields.syncSize.val + 3) →
        (syncOnValue c len).getLsbD k = false)

/-! ## Radio configuration -/

/-- 42_driver_config.md section 2: SET_CONFIG of quantities in range completes with the writes of the rule, in its order, on a
radio that is in STANDBY or goes there at once. -/
def Obligations.SetConfigCompletes : Prop :=
  ∀ (s : State) (rc : RadioConfig) (v r w w' : Byte), Ready s → configOk s.cfg = true → ConfigInRange s.cfg rc →
    ModeGood s.cfg .standby v r → Answers s (configAnswers s.cfg rc v r w w') →
    ∃ t es, exec (.setConfig rc) s = .next t ∧ Returned s t .done es ∧ Described (configOps s.cfg rc v r w w') es ∧
      t.modeMirror = some .standby ∧ t.radio.regs = s.radio.regs

/-- 42_driver_config.md sections 1 and 2: a target that no pair exceeds ends SET_CONFIG with `BandwidthRangeError` after the
deviation has been written; the block stays READY, the earlier writes stay, the bandwidth register is not written. -/
def Obligations.BandwidthRangeErrorKeepsWrites : Prop :=
  ∀ (s : State) (rc : RadioConfig) (v r : Byte), Ready s → configOk s.cfg = true → rc.wf = true →
    rc.carrierFreqHz ≤ 1023999969 → 489 ≤ rc.bitRateBps → 0 < rc.freqDeviationHz → rc.freqDeviationHz ≤ 3999969 →
    max rc.freqDeviationHz (2 * rc.bitRateBps) ≥ (if isOok s.cfg rc.modulationFlags then 250000 else 500000) →
    ModeGood s.cfg .standby v r → Answers s (modeAnswers s.cfg .standby v r) →
    ∃ t es, exec (.setConfig rc) s = .next t ∧
      Raised s t (.bandwidthRange (max rc.freqDeviationHz (2 * rc.bitRateBps))) es ∧
      Described (configHeadOps s.cfg rc v r) es ∧ t.modeMirror = some .standby ∧ t.radio.regs = s.radio.regs

/-- 42_driver_config.md section 2 and 43_transmit.md: SET_CONFIG, TRANSMIT and the codec sends force STANDBY first, so a mode
timeout of that change ends them exactly as it ends `SET_MODE STANDBY`: nothing else has been written. -/
def Obligations.StandbyTimeoutEndsEarly : Prop :=
  ∀ s u : State, Ready s → exec (.setMode .standby) s = .next u →
    u.replies = s.replies ++ [.error (.modeTimeout .standby)] →
    (∀ rc : RadioConfig, rc.wf = true → setConfigRefusal s.cfg rc = none → exec (.setConfig rc) s = .next u) ∧
    (∀ pre payload, (Instr.transmit pre payload).wf = true → transmitRefusal s.cfg pre payload = none →
      exec (.transmit pre payload) s = .next u) ∧
    (∀ code, evSendRefusal s.cfg code = none → exec (.evSend code) s = .next u) ∧
    (∀ code st, lsSendRefusal s.cfg code st = none → exec (.lsSend code st) s = .next u)

/-- 42_driver_config.md section 3: SET_FRAMING completes with the writes of the rule, in its order, whatever the radio is doing,
and changes no mode. -/
def Obligations.SetFramingCompletes : Prop :=
  ∀ (s : State) (fc : FramingConfig), Ready s → configOk s.cfg = true → fc.wf = true →
    ∃ t es, exec (.setFraming fc) s = .next t ∧ Returned s t .done es ∧ Described (framingOps s.cfg fc) es ∧
      t.modeMirror = s.modeMirror

/-! ## Transmit -/

/-- 43_transmit.md: TRANSMIT completes with the transfers of the rule, in order, on a radio whose polls succeed at their first
read: ten transfers with a preamble and nine without when it starts in STANDBY and each later change is a real one. -/
def Obligations.TransmitCompletes : Prop :=
  ∀ (s : State) (pre : Option (List Byte)) (payload : List Byte) (q : TxAnswers), Ready s →
    (Instr.transmit pre payload).wf = true → payload ≠ [] →
    (pre.getD []).length + payload.length ≤ s.cfg.fifoSize → q.Good s.cfg → Answers s (q.list s.cfg) →
    ∃ t es, exec (.transmit pre payload) s = .next t ∧ Returned s t .done es ∧
      Described (transmitOps s.cfg pre payload q) es ∧ t.modeMirror = some .standby ∧ t.radio.regs = s.radio.regs ∧
      (modeField s.cfg q.opmode1 = modeCode .standby → modeField s.cfg q.opmode2 ≠ modeCode .tx →
        modeField s.cfg q.opmode3 ≠ modeCode .standby → transferCount es = if pre.getD [] = [] then 9 else 10)

/-- 43_transmit.md: the refusals of TRANSMIT, in their order. -/
def Obligations.TransmitRefusals : Prop :=
  ∀ (s : State) (pre : Option (List Byte)) (payload : List Byte), s.phase = .ready →
    (Instr.transmit pre payload).wf = true →
    (payload = [] → exec (.transmit pre payload) s = .next (refuse .emptyPayload s)) ∧
    (payload ≠ [] → s.cfg.fifoSize < (pre.getD []).length + payload.length →
      exec (.transmit pre payload) s = .next (refuse .fifoOverflow s))

/-- 43_transmit.md: a TRANSMIT that ends with `TransmitTimeoutError` took at least 1 s, leaves the block READY, and leaves the
mirror at TX where the parameter does not restore STANDBY, at STANDBY or UNKNOWN where it does. -/
def Obligations.TransmitTimeoutEnds : Prop :=
  ∀ (s t : State) (pre : Option (List Byte)) (payload : List Byte), Ready s →
    exec (.transmit pre payload) s = .next t → t.replies = s.replies ++ [.error .transmitTimeout] →
    t.phase = .ready ∧ t.fatal = s.fatal ∧ t.xferBusy = false ∧ s.now + 1000000 ≤ t.now ∧
    (s.cfg.txTimeoutRestoresStandby = false → t.modeMirror = some .tx) ∧
    (s.cfg.txTimeoutRestoresStandby = true → t.modeMirror = some .standby ∨ t.modeMirror = none)

/-! ## EV1527 -/

/-- R76, R77, R117: the EV1527 frame, byte by byte. EV_ENCODE returns it and changes nothing but its reply. -/
def Obligations.EvEncodeFrame : Prop :=
  ∀ (s : State) (code : BitVec 32), CodecPhase s →
    ∃ data : List Byte, data.length = 12 ∧
      (∀ k, k < 12 → data[k]? = some
        ((if code.getLsbD (23 - 2 * k) then (0xE : BitVec 4) else 0x8) ++
         (if code.getLsbD (22 - 2 * k) then (0xE : BitVec 4) else 0x8))) ∧
      exec (.evEncode code) s = .next { s with
        stepIdx := 0
        replies := s.replies ++ [.result (.frame [0x80, 0x00, 0x00, 0x00] (data ++ [0x80]))] }

/-- R118: the encoder reads code bits 23 to 0, all of them, and no others; a code below 2^20 begins with two bytes 0x88. -/
def Obligations.EvEncodeReadsTwentyFourBits : Prop :=
  (∀ c d : BitVec 32, evPayload c = evPayload d ↔ ∀ k, k < 24 → c.getLsbD k = d.getLsbD k) ∧
  (∀ c : BitVec 32, c.toNat < 2 ^ 20 → (evPayload c).take 2 = [0x88, 0x88])

/-- 20_memory.md section 2 and 44_codec_ev1527.md: the chips of the EV1527 frame. One high and 31 low for the preamble, then
four chips for each code bit from the most significant down, 1110 for a 1 and 1000 for a 0, then the terminator; 136 in all. -/
def Obligations.EvFrameOnAir : Prop :=
  ∀ code : BitVec 32,
    chips (evPreamble ++ evPayload code) =
      [true] ++ List.replicate 31 false ++
      ((List.range 24).flatMap fun k =>
        if code.getLsbD (23 - k) then [true, true, true, false] else [true, false, false, false]) ++
      [true] ++ List.replicate 7 false ∧
    (chips (evPreamble ++ evPayload code)).length = 136

/-- 44_codec_ev1527.md section 3: EV_SEND completes with the steps of SET_CONFIG for the EV1527 radio parameters, of
SET_FRAMING if `SEND_FRAMING` gives one, and of TRANSMIT of the encoded frame; no bandwidth error arises. -/
def Obligations.EvSendCompletes : Prop :=
  ∀ (s : State) (code : BitVec 32) (v r w w' : Byte) (q : TxAnswers), Ready s → configOk s.cfg = true →
    489 ≤ s.cfg.evBitrateBps → s.cfg.evBitrateBps < 125000 → 17 ≤ s.cfg.fifoSize → ModeGood s.cfg .standby v r →
    q.Good s.cfg →
    let rc : RadioConfig := { carrierFreqHz := 433920000, freqDeviationHz := 50000, bitRateBps := s.cfg.evBitrateBps,
                              modulationFlags := s.cfg.modflagsOok }
    Answers s (configAnswers s.cfg rc v r w w' ++ q.list s.cfg) →
    ∃ t es, exec (.evSend code) s = .next t ∧ Returned s t .done es ∧
      Described (configOps s.cfg rc v r w w' ++ sendFramingOps s.cfg ++
        transmitOps s.cfg (some [0x80, 0x00, 0x00, 0x00]) (evPayload code) q) es ∧
      t.modeMirror = some .standby ∧ t.radio.regs = s.radio.regs

/-- 44_codec_ev1527.md section 4: EV_DECODE of one byte. A time before the previous byte's is refused; a gap over 10 s discards
what was kept; an invalid byte resets the frame; the twelfth byte completes it, its value taken most significant bit first. -/
def Obligations.EvDecodeStep : Prop :=
  ∀ (s : State) (b : Byte) (t : Nat), CodecPhase s → t < 2 ^ 64 → s.evAcc.length ≤ 11 →
    (∀ u, s.evLast = some u → t < u → exec (.evDecode b t) s = .next (refuse .timeOrder s)) ∧
    ((∀ u, s.evLast = some u → u ≤ t) →
      ∃ kept : List Byte,
        ((∃ u, s.evLast = some u ∧ 10000000 < t - u) → kept = []) ∧
        (¬ (∃ u, s.evLast = some u ∧ 10000000 < t - u) → kept = s.evAcc) ∧
        let valid := (b.extractLsb' 4 4 = 0x8 ∨ b.extractLsb' 4 4 = 0xE) ∧ (b.extractLsb' 0 4 = 0x8 ∨ b.extractLsb' 0 4 = 0xE)
        let ends (acc : List Byte) (v : Option Nat) := exec (.evDecode b t) s = .next { s with
          evAcc := acc, evLast := some t, stepIdx := 0, replies := s.replies ++ [.result (.decoded v)] }
        (¬ valid → ends [] none) ∧
        (valid → kept.length < 11 → ends (kept ++ [b]) none) ∧
        (valid → kept.length = 11 →
          ∃ v, v < 2 ^ 24 ∧
            (∀ k x, (kept ++ [b])[k]? = some x →
              (v.testBit (23 - 2 * k) ↔ x.extractLsb' 4 4 = 0xE) ∧ (v.testBit (22 - 2 * k) ↔ x.extractLsb' 0 4 = 0xE)) ∧
            ends [] (some (v % 2 ^ (match s.cfg.evDecodeWidth with | .w20 => 20 | .w24 => 24)))))

/-- R123: the EV1527 round trip, over the payload EV_ENCODE returns without its terminator, fed to an empty decoder with no gap
over 10 s. -/
def Obligations.EvRoundTrip : Prop :=
  ∀ (s u : State) (code : BitVec 32) (pre payload : List Byte) (times : List Nat), CodecPhase s →
    exec (.evEncode code) s = .next u → u.replies = s.replies ++ [.result (.frame pre payload)] →
    code.toNat < 2 ^ 20 ∨ s.cfg.evDecodeWidth = .w24 ∧ code.toNat < 2 ^ 24 →
    s.evAcc = [] → times.length = 12 → (∀ t ∈ times, t < 2 ^ 64) → (∀ a ∈ s.evLast, ∀ t ∈ times, a ≤ t) →
    times.IsChain (fun a b => a ≤ b ∧ b - a ≤ 10000000) →
    ∃ t, feedEv (payload.dropLast.zip times) s = .next t ∧ t.evAcc = [] ∧
      t.replies = s.replies ++ List.replicate 11 (.result (.decoded none)) ++ [.result (.decoded (some code.toNat))]

/-! ## LightStrip -/

/-- R78, R79, R127: the LightStrip frame, byte by byte, of the code after the marker step. LS_ENCODE returns it and changes
nothing but its reply. -/
def Obligations.LsEncodeFrame : Prop :=
  ∀ (s : State) (code : BitVec 32) (st : Option LsState), CodecPhase s →
    ∃ (c : BitVec 25) (pre data : List Byte),
      (∀ k, k < 20 ∨ k = 24 → c.getLsbD k = code.getLsbD k) ∧
      c.extractLsb' 20 4 = (match st with | none => 0x0#4 | some .on => 0x4#4 | some .off => 0xA#4) ∧
      pre.length = 7 ∧ (∀ k, k < 7 → pre[k]? = some (if k = s.cfg.lsPreMark.val then 0x80 else 0x00)) ∧
      data.length = 13 ∧
      (∀ k, k < 12 → data[k]? = some
        ((if c.getLsbD (24 - 2 * k) then (0x7 : BitVec 4) else 0x4) ++
         (if c.getLsbD (23 - 2 * k) then (0x7 : BitVec 4) else 0x4))) ∧
      data[12]? = some ((if c.getLsbD 0 then (0x7 : BitVec 4) else 0x4) ++ (0x0 : BitVec 4)) ∧
      exec (.lsEncode code st) s = .next { s with
        stepIdx := 0
        replies := s.replies ++ [.result (.frame pre (data ++ [0x00]))] }

/-- 45_codec_lightstrip.md section 3: LS_SEND completes with the steps of SET_CONFIG for the LightStrip radio parameters, of
SET_FRAMING if `SEND_FRAMING` gives one, and of three TRANSMITs of the encoded frame, or of one TRANSMIT of three frames. -/
def Obligations.LsSendCompletes : Prop :=
  ∀ (s : State) (code : BitVec 32) (st : Option LsState) (v r w w' : Byte) (q1 q2 q3 : TxAnswers), Ready s →
    configOk s.cfg = true → 489 ≤ s.cfg.lsBitrateBps → s.cfg.lsBitrateBps < 125000 → ModeGood s.cfg .standby v r →
    q1.Good s.cfg → q2.Good s.cfg → q3.Good s.cfg →
    let rc : RadioConfig := { carrierFreqHz := 433920000, freqDeviationHz := 50000, bitRateBps := s.cfg.lsBitrateBps,
                              modulationFlags := s.cfg.modflagsOok }
    let pre := lsPreamble s.cfg
    let payload := lsPayload code st
    (s.cfg.lsRepeatStyle = .separate → 21 ≤ s.cfg.fifoSize →
      Answers s (configAnswers s.cfg rc v r w w' ++ q1.list s.cfg ++ q2.list s.cfg ++ q3.list s.cfg) →
      ∃ t es, exec (.lsSend code st) s = .next t ∧ Returned s t .done es ∧
        Described (configOps s.cfg rc v r w w' ++ sendFramingOps s.cfg ++ transmitOps s.cfg (some pre) payload q1 ++
          transmitOps s.cfg (some pre) payload q2 ++ transmitOps s.cfg (some pre) payload q3) es ∧
        t.modeMirror = some .standby ∧ t.radio.regs = s.radio.regs) ∧
    (s.cfg.lsRepeatStyle = .concat → 63 ≤ s.cfg.fifoSize →
      Answers s (configAnswers s.cfg rc v r w w' ++ q1.list s.cfg) →
      ∃ t es, exec (.lsSend code st) s = .next t ∧ Returned s t .done es ∧
        Described (configOps s.cfg rc v r w w' ++ sendFramingOps s.cfg ++
          transmitOps s.cfg none ((pre ++ payload) ++ (pre ++ payload) ++ (pre ++ payload)) q1) es ∧
        t.modeMirror = some .standby ∧ t.radio.regs = s.radio.regs)

/-- 45_codec_lightstrip.md section 4: LS_DECODE of one byte, with `LS_DECODE_TIMEOUT` or without it. -/
def Obligations.LsDecodeStep : Prop :=
  ∀ (s : State) (b : Byte) (t : Nat), CodecPhase s → t < 2 ^ 64 → s.lsAcc.length ≤ 12 →
    (∀ u, s.lsLast = some u → t < u → exec (.lsDecode b t) s = .next (refuse .timeOrder s)) ∧
    ((∀ u, s.lsLast = some u → u ≤ t) →
      ∃ kept : List Byte,
        ((∃ l u, s.cfg.lsDecodeTimeout = some l ∧ s.lsLast = some u ∧ l < t - u) → kept = []) ∧
        (¬ (∃ l u, s.cfg.lsDecodeTimeout = some l ∧ s.lsLast = some u ∧ l < t - u) → kept = s.lsAcc) ∧
        let valid := (b.extractLsb' 4 4 = 0x4 ∨ b.extractLsb' 4 4 = 0x7) ∧
          (b.extractLsb' 0 4 = 0x0 ∨ b.extractLsb' 0 4 = 0x4 ∨ b.extractLsb' 0 4 = 0x7)
        let ends (acc : List Byte) (v : Option Nat) := exec (.lsDecode b t) s = .next { s with
          lsAcc := acc, lsLast := some t, stepIdx := 0, replies := s.replies ++ [.result (.decoded v)] }
        let bits := (kept ++ [b]).flatMap fun x =>
          (x.extractLsb' 4 4 == (0x7 : BitVec 4)) ::
            (if x.extractLsb' 0 4 = 0x0 then [] else [x.extractLsb' 0 4 == (0x7 : BitVec 4)])
        (¬ valid → ends [] none) ∧
        (valid → kept.length < 12 → ends (kept ++ [b]) none) ∧
        (valid → kept.length = 12 →
          ∃ v, v < 2 ^ bits.length ∧ (∀ k, k < bits.length → bits[k]? = some (v.testBit (bits.length - 1 - k))) ∧
            ends [] (some v)))

/-- R134: the LightStrip round trip, over the payload LS_ENCODE returns without its terminator, fed to an empty decoder with no
gap over `LS_DECODE_TIMEOUT` where that is set. -/
def Obligations.LsRoundTrip : Prop :=
  ∀ (s u : State) (code : BitVec 32) (st : Option LsState) (pre payload : List Byte) (times : List Nat), CodecPhase s →
    exec (.lsEncode code st) s = .next u → u.replies = s.replies ++ [.result (.frame pre payload)] →
    s.lsAcc = [] → times.length = 13 → (∀ t ∈ times, t < 2 ^ 64) → (∀ a ∈ s.lsLast, ∀ t ∈ times, a ≤ t) →
    times.IsChain (fun a b => a ≤ b ∧ ∀ l ∈ s.cfg.lsDecodeTimeout, b - a ≤ l) →
    ∃ (t : State) (v : BitVec 25), feedLs (payload.dropLast.zip times) s = .next t ∧ t.lsAcc = [] ∧
      t.replies = s.replies ++ List.replicate 12 (.result (.decoded none)) ++ [.result (.decoded (some v.toNat))] ∧
      v = lsMarker code st ∧ v.getLsbD 24 = code.getLsbD 24 ∧ (∀ k, k < 20 → v.getLsbD k = code.getLsbD k) ∧
      v.extractLsb' 20 4 = (match st with | none => 0x0#4 | some .on => 0x4#4 | some .off => 0xA#4)

/-- R135: the brightness mapping, its only tie, and the spec's values. The bit and sense of the marker are the parameter's. The
clause about the code is for a marker above the low byte: inside it the marker would meet a bit of `low`, for which R135 gives
no rule, and what the model does there is its own choice, log entry 23. -/
def Obligations.BrightnessMapping : Prop :=
  (∀ pct : Nat, pct ≤ 100 →
    brightQuantity pct = ⌊(0x1FF : ℚ) * pct / 100 + 1 / 2⌋₊ ∧ brightQuantity pct < 2 ^ 9 ∧
    (brightLow pct).toNat = brightQuantity pct % 2 ^ 8 ∧ (brightMark pct = true ↔ brightQuantity pct < 0x100) ∧
    ((∃ n : Nat, (0x1FF : ℚ) * pct / 100 = n + 1 / 2) ↔ pct = 50)) ∧
  (∀ (c : Config) (pct : Nat), pct ≤ 100 → 8 ≤ c.brightMarker.bit.val →
    (brightBits c pct).setWidth 8 = brightLow pct ∧
    ((brightBits c pct).getLsbD c.brightMarker.bit.val = true ↔ (brightMark pct = c.brightMarker.setWhenBelow))) ∧
  [0, 1, 25, 50, 75, 99, 100].map brightQuantity = [0x000, 0x005, 0x080, 0x100, 0x17F, 0x1FA, 0x1FF]

/-! ## The whole machine -/

/-- Every step keeps the invariant between commands (Safety.lean): the pins idle, the decoders' lengths and bytes, FAILED exactly
with a fatal error, UNKNOWN mode before INIT, the canonical register file. -/
def Obligations.InvariantKept : Prop :=
  ∀ s t : State, Inv s → step s = .next t → Inv t

/-- 70_reset_and_hazards.md section 1: the block's variables after power-on, at `State.reset` and after a power-on of a running
block. The second clause is the model's choice, log entry 18: a power-on leaves the time, the trace, the outcomes, the radio,
the port and the parameters. The third is the invariant at reset. -/
def Obligations.PowerOnState : Prop :=
  (∀ s : State, s = State.reset ∨ (∃ u rest, u.port = .powerOn :: rest ∧ step u = .next s) →
    s.phase = .uninit ∧ s.xferBusy = false ∧ s.modeMirror = none ∧ s.evAcc = [] ∧ s.evLast = none ∧ s.lsAcc = [] ∧
    s.lsLast = none ∧ s.resetOut = .low ∧ s.nssOut = .high ∧ s.fatal = none ∧ s.refused = none) ∧
  (∀ (u s : State) (rest : List HostCall), u.port = .powerOn :: rest → step u = .next s →
    s.now = u.now ∧ s.trace = u.trace ∧ s.replies = u.replies ∧ s.radio = u.radio ∧ s.cfg = u.cfg ∧ s.port = rest) ∧
  Inv State.reset

/-- 00_scope.md section 6: the codecs' own commands touch no pin and no radio, take no time and leave `phase`, the mirror and
`fatal` alone; the encoders leave the decoders alone, each decoder the other. -/
def Obligations.CodecsTouchNoPin : Prop :=
  ∀ (i : Instr) (s t : State), i.name ∈ [.evEncode, .evDecode, .lsEncode, .lsDecode] → exec i s = .next t →
    NoBus s t ∧ t.phase = s.phase ∧ t.modeMirror = s.modeMirror ∧ t.fatal = s.fatal ∧
    (i.name ≠ .evDecode → t.evAcc = s.evAcc ∧ t.evLast = s.evLast) ∧
    (i.name ≠ .lsDecode → t.lsAcc = s.lsAcc ∧ t.lsLast = s.lsLast)

/-- 10_state.md section 2: no rule decides anything from `mode_mirror`. Two states that differ in it alone run every command
alike, trace, outcome and all. -/
def Obligations.MirrorNeverDecides : Prop :=
  ∀ (i : Instr) (s t : State) (m : Option Mode), exec i s = .next t →
    ∃ u, exec i { s with modeMirror := m } = .next u ∧ { u with modeMirror := none } = { t with modeMirror := none }

/-- 10_state.md section 2: time never runs backwards and passes every wait of the trace; no step changes a parameter. That this
goes on across a power-on step, which keeps time and trace, is the model's choice, log entry 18. -/
def Obligations.TimePassesWaits : Prop :=
  ∀ s t : State, step s = .next t → t.cfg = s.cfg ∧ ∃ es, t.trace = s.trace ++ es ∧ s.now + waitTotal es ≤ t.now

/-- 30_encoding.md section 5: the pseudo-commands are their expansions. `RMW` writes back what its REG_READ gave; `BOOT` is the
startup order. That `BOOT` goes on after an INIT or a SET_HIGH_POWER that failed is the model's choice, log entry 24. -/
def Obligations.PseudoExpansions : Prop :=
  (∀ s : State, runPseudo .sleep s = exec (.setMode .sleep) s ∧ runPseudo .standby s = exec (.setMode .standby) s ∧
    runPseudo .listen s = exec (.setMode .rx) s) ∧
  (∀ (s : State) (a : Byte) (v : BitVec 16),
    runPseudo (.write16 a v) s = exec (.regWrite a [v.extractLsb' 8 8, v.extractLsb' 0 8]) s) ∧
  (∀ (s : State) (a : Byte) (v : BitVec 24),
    runPseudo (.write24 a v) s = exec (.regWrite a [v.extractLsb' 16 8, v.extractLsb' 8 8, v.extractLsb' 0 8]) s) ∧
  (∀ (s t : State) (a x y v : Byte), exec (.regRead a) s = .next t → t.replies = s.replies ++ [.result (.byte v)] →
    runPseudo (.rmw a x y) s = exec (.regWrite a [(v &&& x) ||| y]) t) ∧
  (∀ s t u : State, exec .init s = .next t → exec .setHighPower t = .next u →
    runPseudo .boot s = exec (.setMode .sleep) u)
end

