-- ==== Sys2Proof/Laws/State.lean ====
section
/-! SUPPORT. What each update of the state does to each field: one lemma per field and update, true by definition. -/

namespace Sys2Proof.Machine

variable (s : State)

/-! ## timedEvent -/

@[simp] theorem timedEvent_phase (e : Event) (n : Nat) : (timedEvent e n s).phase = s.phase := rfl
@[simp] theorem timedEvent_xferBusy (e : Event) (n : Nat) : (timedEvent e n s).xferBusy = s.xferBusy := rfl
@[simp] theorem timedEvent_modeMirror (e : Event) (n : Nat) : (timedEvent e n s).modeMirror = s.modeMirror := rfl
@[simp] theorem timedEvent_evAcc (e : Event) (n : Nat) : (timedEvent e n s).evAcc = s.evAcc := rfl
@[simp] theorem timedEvent_evLast (e : Event) (n : Nat) : (timedEvent e n s).evLast = s.evLast := rfl
@[simp] theorem timedEvent_lsAcc (e : Event) (n : Nat) : (timedEvent e n s).lsAcc = s.lsAcc := rfl
@[simp] theorem timedEvent_lsLast (e : Event) (n : Nat) : (timedEvent e n s).lsLast = s.lsLast := rfl
@[simp] theorem timedEvent_resetOut (e : Event) (n : Nat) : (timedEvent e n s).resetOut = s.resetOut := rfl
@[simp] theorem timedEvent_nssOut (e : Event) (n : Nat) : (timedEvent e n s).nssOut = s.nssOut := rfl
@[simp] theorem timedEvent_fatal (e : Event) (n : Nat) : (timedEvent e n s).fatal = s.fatal := rfl
@[simp] theorem timedEvent_refused (e : Event) (n : Nat) : (timedEvent e n s).refused = s.refused := rfl
@[simp] theorem timedEvent_stepIdx (e : Event) (n : Nat) : (timedEvent e n s).stepIdx = s.stepIdx + 1 := rfl
@[simp] theorem timedEvent_now (e : Event) (n : Nat) : (timedEvent e n s).now = s.now + n + nextExtra s := rfl
@[simp] theorem timedEvent_trace (e : Event) (n : Nat) : (timedEvent e n s).trace = s.trace ++ [e] := rfl
@[simp] theorem timedEvent_replies (e : Event) (n : Nat) : (timedEvent e n s).replies = s.replies := rfl
@[simp] theorem timedEvent_port (e : Event) (n : Nat) : (timedEvent e n s).port = s.port := rfl
@[simp] theorem timedEvent_radio (e : Event) (n : Nat) : (timedEvent e n s).radio = s.radio := rfl
@[simp] theorem timedEvent_delays (e : Event) (n : Nat) : (timedEvent e n s).delays = s.delays.tail := rfl
@[simp] theorem timedEvent_choices (e : Event) (n : Nat) : (timedEvent e n s).choices = s.choices + 1 := rfl
@[simp] theorem timedEvent_cfg (e : Event) (n : Nat) : (timedEvent e n s).cfg = s.cfg := rfl

/-! ## wait -/

@[simp] theorem wait_phase (n : Nat) : (wait n s).phase = s.phase := rfl
@[simp] theorem wait_xferBusy (n : Nat) : (wait n s).xferBusy = s.xferBusy := rfl
@[simp] theorem wait_modeMirror (n : Nat) : (wait n s).modeMirror = s.modeMirror := rfl
@[simp] theorem wait_evAcc (n : Nat) : (wait n s).evAcc = s.evAcc := rfl
@[simp] theorem wait_evLast (n : Nat) : (wait n s).evLast = s.evLast := rfl
@[simp] theorem wait_lsAcc (n : Nat) : (wait n s).lsAcc = s.lsAcc := rfl
@[simp] theorem wait_lsLast (n : Nat) : (wait n s).lsLast = s.lsLast := rfl
@[simp] theorem wait_resetOut (n : Nat) : (wait n s).resetOut = s.resetOut := rfl
@[simp] theorem wait_nssOut (n : Nat) : (wait n s).nssOut = s.nssOut := rfl
@[simp] theorem wait_fatal (n : Nat) : (wait n s).fatal = s.fatal := rfl
@[simp] theorem wait_refused (n : Nat) : (wait n s).refused = s.refused := rfl
@[simp] theorem wait_stepIdx (n : Nat) : (wait n s).stepIdx = s.stepIdx + 1 := rfl
@[simp] theorem wait_now (n : Nat) : (wait n s).now = s.now + n + nextExtra s := rfl
@[simp] theorem wait_trace (n : Nat) : (wait n s).trace = s.trace ++ [.wait n] := rfl
@[simp] theorem wait_replies (n : Nat) : (wait n s).replies = s.replies := rfl
@[simp] theorem wait_port (n : Nat) : (wait n s).port = s.port := rfl
@[simp] theorem wait_radio (n : Nat) : (wait n s).radio = s.radio := rfl
@[simp] theorem wait_delays (n : Nat) : (wait n s).delays = s.delays.tail := rfl
@[simp] theorem wait_choices (n : Nat) : (wait n s).choices = s.choices + 1 := rfl
@[simp] theorem wait_cfg (n : Nat) : (wait n s).cfg = s.cfg := rfl

/-! ## setResetLine -/

@[simp] theorem setResetLine_phase (l : Level) : (setResetLine l s).phase = s.phase := rfl
@[simp] theorem setResetLine_xferBusy (l : Level) : (setResetLine l s).xferBusy = s.xferBusy := rfl
@[simp] theorem setResetLine_modeMirror (l : Level) : (setResetLine l s).modeMirror = s.modeMirror := rfl
@[simp] theorem setResetLine_evAcc (l : Level) : (setResetLine l s).evAcc = s.evAcc := rfl
@[simp] theorem setResetLine_evLast (l : Level) : (setResetLine l s).evLast = s.evLast := rfl
@[simp] theorem setResetLine_lsAcc (l : Level) : (setResetLine l s).lsAcc = s.lsAcc := rfl
@[simp] theorem setResetLine_lsLast (l : Level) : (setResetLine l s).lsLast = s.lsLast := rfl
@[simp] theorem setResetLine_resetOut (l : Level) : (setResetLine l s).resetOut = l := rfl
@[simp] theorem setResetLine_nssOut (l : Level) : (setResetLine l s).nssOut = s.nssOut := rfl
@[simp] theorem setResetLine_fatal (l : Level) : (setResetLine l s).fatal = s.fatal := rfl
@[simp] theorem setResetLine_refused (l : Level) : (setResetLine l s).refused = s.refused := rfl
@[simp] theorem setResetLine_stepIdx (l : Level) : (setResetLine l s).stepIdx = s.stepIdx + 1 := rfl
@[simp] theorem setResetLine_now (l : Level) : (setResetLine l s).now = s.now := rfl
@[simp] theorem setResetLine_trace (l : Level) : (setResetLine l s).trace = s.trace ++ [.resetLine l] := rfl
@[simp] theorem setResetLine_replies (l : Level) : (setResetLine l s).replies = s.replies := rfl
@[simp] theorem setResetLine_port (l : Level) : (setResetLine l s).port = s.port := rfl
@[simp] theorem setResetLine_radio (l : Level) : (setResetLine l s).radio = s.radio := rfl
@[simp] theorem setResetLine_delays (l : Level) : (setResetLine l s).delays = s.delays := rfl
@[simp] theorem setResetLine_choices (l : Level) : (setResetLine l s).choices = s.choices := rfl
@[simp] theorem setResetLine_cfg (l : Level) : (setResetLine l s).cfg = s.cfg := rfl

/-! ## resetRadio -/

@[simp] theorem resetRadio_phase : (resetRadio s).phase = s.phase := rfl
@[simp] theorem resetRadio_xferBusy : (resetRadio s).xferBusy = s.xferBusy := rfl
@[simp] theorem resetRadio_modeMirror : (resetRadio s).modeMirror = s.modeMirror := rfl
@[simp] theorem resetRadio_evAcc : (resetRadio s).evAcc = s.evAcc := rfl
@[simp] theorem resetRadio_evLast : (resetRadio s).evLast = s.evLast := rfl
@[simp] theorem resetRadio_lsAcc : (resetRadio s).lsAcc = s.lsAcc := rfl
@[simp] theorem resetRadio_lsLast : (resetRadio s).lsLast = s.lsLast := rfl
@[simp] theorem resetRadio_resetOut : (resetRadio s).resetOut = s.resetOut := rfl
@[simp] theorem resetRadio_nssOut : (resetRadio s).nssOut = s.nssOut := rfl
@[simp] theorem resetRadio_fatal : (resetRadio s).fatal = s.fatal := rfl
@[simp] theorem resetRadio_refused : (resetRadio s).refused = s.refused := rfl
@[simp] theorem resetRadio_stepIdx : (resetRadio s).stepIdx = s.stepIdx := rfl
@[simp] theorem resetRadio_now : (resetRadio s).now = s.now := rfl
@[simp] theorem resetRadio_trace : (resetRadio s).trace = s.trace := rfl
@[simp] theorem resetRadio_replies : (resetRadio s).replies = s.replies := rfl
@[simp] theorem resetRadio_port : (resetRadio s).port = s.port := rfl
@[simp] theorem resetRadio_radio : (resetRadio s).radio = s.radio.afterReset := rfl
@[simp] theorem resetRadio_delays : (resetRadio s).delays = s.delays := rfl
@[simp] theorem resetRadio_choices : (resetRadio s).choices = s.choices := rfl
@[simp] theorem resetRadio_cfg : (resetRadio s).cfg = s.cfg := rfl

/-! ## openTransfer -/

@[simp] theorem openTransfer_phase : (openTransfer s).phase = s.phase := rfl
@[simp] theorem openTransfer_xferBusy : (openTransfer s).xferBusy = true := rfl
@[simp] theorem openTransfer_modeMirror : (openTransfer s).modeMirror = s.modeMirror := rfl
@[simp] theorem openTransfer_evAcc : (openTransfer s).evAcc = s.evAcc := rfl
@[simp] theorem openTransfer_evLast : (openTransfer s).evLast = s.evLast := rfl
@[simp] theorem openTransfer_lsAcc : (openTransfer s).lsAcc = s.lsAcc := rfl
@[simp] theorem openTransfer_lsLast : (openTransfer s).lsLast = s.lsLast := rfl
@[simp] theorem openTransfer_resetOut : (openTransfer s).resetOut = s.resetOut := rfl
@[simp] theorem openTransfer_nssOut : (openTransfer s).nssOut = .low := rfl
@[simp] theorem openTransfer_fatal : (openTransfer s).fatal = s.fatal := rfl
@[simp] theorem openTransfer_refused : (openTransfer s).refused = s.refused := rfl
@[simp] theorem openTransfer_stepIdx : (openTransfer s).stepIdx = s.stepIdx := rfl
@[simp] theorem openTransfer_now : (openTransfer s).now = s.now := rfl
@[simp] theorem openTransfer_trace : (openTransfer s).trace = s.trace := rfl
@[simp] theorem openTransfer_replies : (openTransfer s).replies = s.replies := rfl
@[simp] theorem openTransfer_port : (openTransfer s).port = s.port := rfl
@[simp] theorem openTransfer_radio : (openTransfer s).radio = s.radio := rfl
@[simp] theorem openTransfer_delays : (openTransfer s).delays = s.delays := rfl
@[simp] theorem openTransfer_choices : (openTransfer s).choices = s.choices := rfl
@[simp] theorem openTransfer_cfg : (openTransfer s).cfg = s.cfg := rfl

/-! ## closeTransfer -/

@[simp] theorem closeTransfer_phase : (closeTransfer s).phase = s.phase := rfl
@[simp] theorem closeTransfer_xferBusy : (closeTransfer s).xferBusy = false := rfl
@[simp] theorem closeTransfer_modeMirror : (closeTransfer s).modeMirror = s.modeMirror := rfl
@[simp] theorem closeTransfer_evAcc : (closeTransfer s).evAcc = s.evAcc := rfl
@[simp] theorem closeTransfer_evLast : (closeTransfer s).evLast = s.evLast := rfl
@[simp] theorem closeTransfer_lsAcc : (closeTransfer s).lsAcc = s.lsAcc := rfl
@[simp] theorem closeTransfer_lsLast : (closeTransfer s).lsLast = s.lsLast := rfl
@[simp] theorem closeTransfer_resetOut : (closeTransfer s).resetOut = s.resetOut := rfl
@[simp] theorem closeTransfer_nssOut : (closeTransfer s).nssOut = .high := rfl
@[simp] theorem closeTransfer_fatal : (closeTransfer s).fatal = s.fatal := rfl
@[simp] theorem closeTransfer_refused : (closeTransfer s).refused = s.refused := rfl
@[simp] theorem closeTransfer_stepIdx : (closeTransfer s).stepIdx = s.stepIdx := rfl
@[simp] theorem closeTransfer_now : (closeTransfer s).now = s.now := rfl
@[simp] theorem closeTransfer_trace : (closeTransfer s).trace = s.trace := rfl
@[simp] theorem closeTransfer_replies : (closeTransfer s).replies = s.replies := rfl
@[simp] theorem closeTransfer_port : (closeTransfer s).port = s.port := rfl
@[simp] theorem closeTransfer_radio : (closeTransfer s).radio = s.radio := rfl
@[simp] theorem closeTransfer_delays : (closeTransfer s).delays = s.delays := rfl
@[simp] theorem closeTransfer_choices : (closeTransfer s).choices = s.choices := rfl
@[simp] theorem closeTransfer_cfg : (closeTransfer s).cfg = s.cfg := rfl

/-! ## afterRead -/

@[simp] theorem afterRead_phase (a : Addr) : (afterRead a s).phase = s.phase := rfl
@[simp] theorem afterRead_xferBusy (a : Addr) : (afterRead a s).xferBusy = false := rfl
@[simp] theorem afterRead_modeMirror (a : Addr) : (afterRead a s).modeMirror = s.modeMirror := rfl
@[simp] theorem afterRead_evAcc (a : Addr) : (afterRead a s).evAcc = s.evAcc := rfl
@[simp] theorem afterRead_evLast (a : Addr) : (afterRead a s).evLast = s.evLast := rfl
@[simp] theorem afterRead_lsAcc (a : Addr) : (afterRead a s).lsAcc = s.lsAcc := rfl
@[simp] theorem afterRead_lsLast (a : Addr) : (afterRead a s).lsLast = s.lsLast := rfl
@[simp] theorem afterRead_resetOut (a : Addr) : (afterRead a s).resetOut = s.resetOut := rfl
@[simp] theorem afterRead_nssOut (a : Addr) : (afterRead a s).nssOut = .high := rfl
@[simp] theorem afterRead_fatal (a : Addr) : (afterRead a s).fatal = s.fatal := rfl
@[simp] theorem afterRead_refused (a : Addr) : (afterRead a s).refused = s.refused := rfl
@[simp] theorem afterRead_stepIdx (a : Addr) : (afterRead a s).stepIdx = s.stepIdx + 1 := rfl
@[simp] theorem afterRead_now (a : Addr) : (afterRead a s).now = s.now + nextExtra s := rfl
@[simp] theorem afterRead_trace (a : Addr) : (afterRead a s).trace = s.trace ++ [.transfer (readMosi a) [freeMiso s (readMosi a) 0, radioReply a s]] := rfl
@[simp] theorem afterRead_replies (a : Addr) : (afterRead a s).replies = s.replies := rfl
@[simp] theorem afterRead_port (a : Addr) : (afterRead a s).port = s.port := rfl
@[simp] theorem afterRead_radio (a : Addr) : (afterRead a s).radio = s.radio.afterRead s.cfg a := rfl
@[simp] theorem afterRead_delays (a : Addr) : (afterRead a s).delays = s.delays.tail := rfl
@[simp] theorem afterRead_choices (a : Addr) : (afterRead a s).choices = s.choices + 1 := rfl
@[simp] theorem afterRead_cfg (a : Addr) : (afterRead a s).cfg = s.cfg := rfl

/-! ## afterWrite -/

@[simp] theorem afterWrite_phase (a : Addr) (d : List Byte) : (afterWrite a d s).phase = s.phase := rfl
@[simp] theorem afterWrite_xferBusy (a : Addr) (d : List Byte) : (afterWrite a d s).xferBusy = false := rfl
@[simp] theorem afterWrite_modeMirror (a : Addr) (d : List Byte) : (afterWrite a d s).modeMirror = s.modeMirror := rfl
@[simp] theorem afterWrite_evAcc (a : Addr) (d : List Byte) : (afterWrite a d s).evAcc = s.evAcc := rfl
@[simp] theorem afterWrite_evLast (a : Addr) (d : List Byte) : (afterWrite a d s).evLast = s.evLast := rfl
@[simp] theorem afterWrite_lsAcc (a : Addr) (d : List Byte) : (afterWrite a d s).lsAcc = s.lsAcc := rfl
@[simp] theorem afterWrite_lsLast (a : Addr) (d : List Byte) : (afterWrite a d s).lsLast = s.lsLast := rfl
@[simp] theorem afterWrite_resetOut (a : Addr) (d : List Byte) : (afterWrite a d s).resetOut = s.resetOut := rfl
@[simp] theorem afterWrite_nssOut (a : Addr) (d : List Byte) : (afterWrite a d s).nssOut = .high := rfl
@[simp] theorem afterWrite_fatal (a : Addr) (d : List Byte) : (afterWrite a d s).fatal = s.fatal := rfl
@[simp] theorem afterWrite_refused (a : Addr) (d : List Byte) : (afterWrite a d s).refused = s.refused := rfl
@[simp] theorem afterWrite_stepIdx (a : Addr) (d : List Byte) : (afterWrite a d s).stepIdx = s.stepIdx + 1 := rfl
@[simp] theorem afterWrite_now (a : Addr) (d : List Byte) : (afterWrite a d s).now = s.now + nextExtra s := rfl
@[simp] theorem afterWrite_trace (a : Addr) (d : List Byte) : (afterWrite a d s).trace = s.trace ++ [.transfer (writeMosi a d) (writeMiso a d s)] := rfl
@[simp] theorem afterWrite_replies (a : Addr) (d : List Byte) : (afterWrite a d s).replies = s.replies := rfl
@[simp] theorem afterWrite_port (a : Addr) (d : List Byte) : (afterWrite a d s).port = s.port := rfl
@[simp] theorem afterWrite_radio (a : Addr) (d : List Byte) : (afterWrite a d s).radio = s.radio.afterWrite s.cfg a d := rfl
@[simp] theorem afterWrite_delays (a : Addr) (d : List Byte) : (afterWrite a d s).delays = s.delays.tail := rfl
@[simp] theorem afterWrite_choices (a : Addr) (d : List Byte) : (afterWrite a d s).choices = s.choices + 1 := rfl
@[simp] theorem afterWrite_cfg (a : Addr) (d : List Byte) : (afterWrite a d s).cfg = s.cfg := rfl

/-! ## setMirror -/

@[simp] theorem setMirror_phase (m : Option Mode) : (setMirror m s).phase = s.phase := rfl
@[simp] theorem setMirror_xferBusy (m : Option Mode) : (setMirror m s).xferBusy = s.xferBusy := rfl
@[simp] theorem setMirror_modeMirror (m : Option Mode) : (setMirror m s).modeMirror = m := rfl
@[simp] theorem setMirror_evAcc (m : Option Mode) : (setMirror m s).evAcc = s.evAcc := rfl
@[simp] theorem setMirror_evLast (m : Option Mode) : (setMirror m s).evLast = s.evLast := rfl
@[simp] theorem setMirror_lsAcc (m : Option Mode) : (setMirror m s).lsAcc = s.lsAcc := rfl
@[simp] theorem setMirror_lsLast (m : Option Mode) : (setMirror m s).lsLast = s.lsLast := rfl
@[simp] theorem setMirror_resetOut (m : Option Mode) : (setMirror m s).resetOut = s.resetOut := rfl
@[simp] theorem setMirror_nssOut (m : Option Mode) : (setMirror m s).nssOut = s.nssOut := rfl
@[simp] theorem setMirror_fatal (m : Option Mode) : (setMirror m s).fatal = s.fatal := rfl
@[simp] theorem setMirror_refused (m : Option Mode) : (setMirror m s).refused = s.refused := rfl
@[simp] theorem setMirror_stepIdx (m : Option Mode) : (setMirror m s).stepIdx = s.stepIdx := rfl
@[simp] theorem setMirror_now (m : Option Mode) : (setMirror m s).now = s.now := rfl
@[simp] theorem setMirror_trace (m : Option Mode) : (setMirror m s).trace = s.trace := rfl
@[simp] theorem setMirror_replies (m : Option Mode) : (setMirror m s).replies = s.replies := rfl
@[simp] theorem setMirror_port (m : Option Mode) : (setMirror m s).port = s.port := rfl
@[simp] theorem setMirror_radio (m : Option Mode) : (setMirror m s).radio = s.radio := rfl
@[simp] theorem setMirror_delays (m : Option Mode) : (setMirror m s).delays = s.delays := rfl
@[simp] theorem setMirror_choices (m : Option Mode) : (setMirror m s).choices = s.choices := rfl
@[simp] theorem setMirror_cfg (m : Option Mode) : (setMirror m s).cfg = s.cfg := rfl

/-! ## clearOnInit -/

@[simp] theorem clearOnInit_phase : (clearOnInit s).phase = s.phase := rfl
@[simp] theorem clearOnInit_xferBusy : (clearOnInit s).xferBusy = s.xferBusy := rfl
@[simp] theorem clearOnInit_modeMirror : (clearOnInit s).modeMirror = none := rfl
@[simp] theorem clearOnInit_evAcc : (clearOnInit s).evAcc = [] := rfl
@[simp] theorem clearOnInit_evLast : (clearOnInit s).evLast = none := rfl
@[simp] theorem clearOnInit_lsAcc : (clearOnInit s).lsAcc = [] := rfl
@[simp] theorem clearOnInit_lsLast : (clearOnInit s).lsLast = none := rfl
@[simp] theorem clearOnInit_resetOut : (clearOnInit s).resetOut = s.resetOut := rfl
@[simp] theorem clearOnInit_nssOut : (clearOnInit s).nssOut = s.nssOut := rfl
@[simp] theorem clearOnInit_fatal : (clearOnInit s).fatal = s.fatal := rfl
@[simp] theorem clearOnInit_refused : (clearOnInit s).refused = s.refused := rfl
@[simp] theorem clearOnInit_stepIdx : (clearOnInit s).stepIdx = s.stepIdx := rfl
@[simp] theorem clearOnInit_now : (clearOnInit s).now = s.now := rfl
@[simp] theorem clearOnInit_trace : (clearOnInit s).trace = s.trace := rfl
@[simp] theorem clearOnInit_replies : (clearOnInit s).replies = s.replies := rfl
@[simp] theorem clearOnInit_port : (clearOnInit s).port = s.port := rfl
@[simp] theorem clearOnInit_radio : (clearOnInit s).radio = s.radio := rfl
@[simp] theorem clearOnInit_delays : (clearOnInit s).delays = s.delays := rfl
@[simp] theorem clearOnInit_choices : (clearOnInit s).choices = s.choices := rfl
@[simp] theorem clearOnInit_cfg : (clearOnInit s).cfg = s.cfg := rfl

/-! ## startCommand -/

@[simp] theorem startCommand_phase : (startCommand s).phase = .busy := rfl
@[simp] theorem startCommand_xferBusy : (startCommand s).xferBusy = s.xferBusy := rfl
@[simp] theorem startCommand_modeMirror : (startCommand s).modeMirror = s.modeMirror := rfl
@[simp] theorem startCommand_evAcc : (startCommand s).evAcc = s.evAcc := rfl
@[simp] theorem startCommand_evLast : (startCommand s).evLast = s.evLast := rfl
@[simp] theorem startCommand_lsAcc : (startCommand s).lsAcc = s.lsAcc := rfl
@[simp] theorem startCommand_lsLast : (startCommand s).lsLast = s.lsLast := rfl
@[simp] theorem startCommand_resetOut : (startCommand s).resetOut = s.resetOut := rfl
@[simp] theorem startCommand_nssOut : (startCommand s).nssOut = s.nssOut := rfl
@[simp] theorem startCommand_fatal : (startCommand s).fatal = s.fatal := rfl
@[simp] theorem startCommand_refused : (startCommand s).refused = s.refused := rfl
@[simp] theorem startCommand_stepIdx : (startCommand s).stepIdx = 0 := rfl
@[simp] theorem startCommand_now : (startCommand s).now = s.now := rfl
@[simp] theorem startCommand_trace : (startCommand s).trace = s.trace := rfl
@[simp] theorem startCommand_replies : (startCommand s).replies = s.replies := rfl
@[simp] theorem startCommand_port : (startCommand s).port = s.port := rfl
@[simp] theorem startCommand_radio : (startCommand s).radio = s.radio := rfl
@[simp] theorem startCommand_delays : (startCommand s).delays = s.delays := rfl
@[simp] theorem startCommand_choices : (startCommand s).choices = s.choices := rfl
@[simp] theorem startCommand_cfg : (startCommand s).cfg = s.cfg := rfl

/-! ## refuse -/

@[simp] theorem refuse_phase (r : Reason) : (refuse r s).phase = s.phase := rfl
@[simp] theorem refuse_xferBusy (r : Reason) : (refuse r s).xferBusy = s.xferBusy := rfl
@[simp] theorem refuse_modeMirror (r : Reason) : (refuse r s).modeMirror = s.modeMirror := rfl
@[simp] theorem refuse_evAcc (r : Reason) : (refuse r s).evAcc = s.evAcc := rfl
@[simp] theorem refuse_evLast (r : Reason) : (refuse r s).evLast = s.evLast := rfl
@[simp] theorem refuse_lsAcc (r : Reason) : (refuse r s).lsAcc = s.lsAcc := rfl
@[simp] theorem refuse_lsLast (r : Reason) : (refuse r s).lsLast = s.lsLast := rfl
@[simp] theorem refuse_resetOut (r : Reason) : (refuse r s).resetOut = s.resetOut := rfl
@[simp] theorem refuse_nssOut (r : Reason) : (refuse r s).nssOut = s.nssOut := rfl
@[simp] theorem refuse_fatal (r : Reason) : (refuse r s).fatal = s.fatal := rfl
@[simp] theorem refuse_refused (r : Reason) : (refuse r s).refused = some r := rfl
@[simp] theorem refuse_stepIdx (r : Reason) : (refuse r s).stepIdx = s.stepIdx := rfl
@[simp] theorem refuse_now (r : Reason) : (refuse r s).now = s.now := rfl
@[simp] theorem refuse_trace (r : Reason) : (refuse r s).trace = s.trace := rfl
@[simp] theorem refuse_replies (r : Reason) : (refuse r s).replies = s.replies ++ [.refusal r] := rfl
@[simp] theorem refuse_port (r : Reason) : (refuse r s).port = s.port := rfl
@[simp] theorem refuse_radio (r : Reason) : (refuse r s).radio = s.radio := rfl
@[simp] theorem refuse_delays (r : Reason) : (refuse r s).delays = s.delays := rfl
@[simp] theorem refuse_choices (r : Reason) : (refuse r s).choices = s.choices := rfl
@[simp] theorem refuse_cfg (r : Reason) : (refuse r s).cfg = s.cfg := rfl

/-! ## endOnReturn -/

@[simp] theorem endOnReturn_phase (p : Phase) (r : CmdResult) : (endOnReturn p r s).phase = p := rfl
@[simp] theorem endOnReturn_xferBusy (p : Phase) (r : CmdResult) : (endOnReturn p r s).xferBusy = s.xferBusy := rfl
@[simp] theorem endOnReturn_modeMirror (p : Phase) (r : CmdResult) : (endOnReturn p r s).modeMirror = s.modeMirror := rfl
@[simp] theorem endOnReturn_evAcc (p : Phase) (r : CmdResult) : (endOnReturn p r s).evAcc = s.evAcc := rfl
@[simp] theorem endOnReturn_evLast (p : Phase) (r : CmdResult) : (endOnReturn p r s).evLast = s.evLast := rfl
@[simp] theorem endOnReturn_lsAcc (p : Phase) (r : CmdResult) : (endOnReturn p r s).lsAcc = s.lsAcc := rfl
@[simp] theorem endOnReturn_lsLast (p : Phase) (r : CmdResult) : (endOnReturn p r s).lsLast = s.lsLast := rfl
@[simp] theorem endOnReturn_resetOut (p : Phase) (r : CmdResult) : (endOnReturn p r s).resetOut = s.resetOut := rfl
@[simp] theorem endOnReturn_nssOut (p : Phase) (r : CmdResult) : (endOnReturn p r s).nssOut = s.nssOut := rfl
@[simp] theorem endOnReturn_fatal (p : Phase) (r : CmdResult) : (endOnReturn p r s).fatal = s.fatal := rfl
@[simp] theorem endOnReturn_refused (p : Phase) (r : CmdResult) : (endOnReturn p r s).refused = s.refused := rfl
@[simp] theorem endOnReturn_stepIdx (p : Phase) (r : CmdResult) : (endOnReturn p r s).stepIdx = 0 := rfl
@[simp] theorem endOnReturn_now (p : Phase) (r : CmdResult) : (endOnReturn p r s).now = s.now := rfl
@[simp] theorem endOnReturn_trace (p : Phase) (r : CmdResult) : (endOnReturn p r s).trace = s.trace := rfl
@[simp] theorem endOnReturn_replies (p : Phase) (r : CmdResult) : (endOnReturn p r s).replies = s.replies ++ [.result r] := rfl
@[simp] theorem endOnReturn_port (p : Phase) (r : CmdResult) : (endOnReturn p r s).port = s.port := rfl
@[simp] theorem endOnReturn_radio (p : Phase) (r : CmdResult) : (endOnReturn p r s).radio = s.radio := rfl
@[simp] theorem endOnReturn_delays (p : Phase) (r : CmdResult) : (endOnReturn p r s).delays = s.delays := rfl
@[simp] theorem endOnReturn_choices (p : Phase) (r : CmdResult) : (endOnReturn p r s).choices = s.choices := rfl
@[simp] theorem endOnReturn_cfg (p : Phase) (r : CmdResult) : (endOnReturn p r s).cfg = s.cfg := rfl

/-! ## endOnError -/

@[simp] theorem endOnError_phase (p : Phase) (e : CmdError) : (endOnError p e s).phase = if e.isFatal then .failed else p := rfl
@[simp] theorem endOnError_xferBusy (p : Phase) (e : CmdError) : (endOnError p e s).xferBusy = s.xferBusy := rfl
@[simp] theorem endOnError_modeMirror (p : Phase) (e : CmdError) : (endOnError p e s).modeMirror = s.modeMirror := rfl
@[simp] theorem endOnError_evAcc (p : Phase) (e : CmdError) : (endOnError p e s).evAcc = s.evAcc := rfl
@[simp] theorem endOnError_evLast (p : Phase) (e : CmdError) : (endOnError p e s).evLast = s.evLast := rfl
@[simp] theorem endOnError_lsAcc (p : Phase) (e : CmdError) : (endOnError p e s).lsAcc = s.lsAcc := rfl
@[simp] theorem endOnError_lsLast (p : Phase) (e : CmdError) : (endOnError p e s).lsLast = s.lsLast := rfl
@[simp] theorem endOnError_resetOut (p : Phase) (e : CmdError) : (endOnError p e s).resetOut = s.resetOut := rfl
@[simp] theorem endOnError_nssOut (p : Phase) (e : CmdError) : (endOnError p e s).nssOut = s.nssOut := rfl
@[simp] theorem endOnError_fatal (p : Phase) (e : CmdError) : (endOnError p e s).fatal = if e.isFatal then some e.code else s.fatal := rfl
@[simp] theorem endOnError_refused (p : Phase) (e : CmdError) : (endOnError p e s).refused = s.refused := rfl
@[simp] theorem endOnError_stepIdx (p : Phase) (e : CmdError) : (endOnError p e s).stepIdx = 0 := rfl
@[simp] theorem endOnError_now (p : Phase) (e : CmdError) : (endOnError p e s).now = s.now := rfl
@[simp] theorem endOnError_trace (p : Phase) (e : CmdError) : (endOnError p e s).trace = s.trace := rfl
@[simp] theorem endOnError_replies (p : Phase) (e : CmdError) : (endOnError p e s).replies = s.replies ++ [.error e] := rfl
@[simp] theorem endOnError_port (p : Phase) (e : CmdError) : (endOnError p e s).port = s.port := rfl
@[simp] theorem endOnError_radio (p : Phase) (e : CmdError) : (endOnError p e s).radio = s.radio := rfl
@[simp] theorem endOnError_delays (p : Phase) (e : CmdError) : (endOnError p e s).delays = s.delays := rfl
@[simp] theorem endOnError_choices (p : Phase) (e : CmdError) : (endOnError p e s).choices = s.choices := rfl
@[simp] theorem endOnError_cfg (p : Phase) (e : CmdError) : (endOnError p e s).cfg = s.cfg := rfl

/-! ## putWord -/

@[simp] theorem putWord_phase (w : List Byte) : (putWord w s).phase = s.phase := rfl
@[simp] theorem putWord_xferBusy (w : List Byte) : (putWord w s).xferBusy = s.xferBusy := rfl
@[simp] theorem putWord_modeMirror (w : List Byte) : (putWord w s).modeMirror = s.modeMirror := rfl
@[simp] theorem putWord_evAcc (w : List Byte) : (putWord w s).evAcc = s.evAcc := rfl
@[simp] theorem putWord_evLast (w : List Byte) : (putWord w s).evLast = s.evLast := rfl
@[simp] theorem putWord_lsAcc (w : List Byte) : (putWord w s).lsAcc = s.lsAcc := rfl
@[simp] theorem putWord_lsLast (w : List Byte) : (putWord w s).lsLast = s.lsLast := rfl
@[simp] theorem putWord_resetOut (w : List Byte) : (putWord w s).resetOut = s.resetOut := rfl
@[simp] theorem putWord_nssOut (w : List Byte) : (putWord w s).nssOut = s.nssOut := rfl
@[simp] theorem putWord_fatal (w : List Byte) : (putWord w s).fatal = s.fatal := rfl
@[simp] theorem putWord_refused (w : List Byte) : (putWord w s).refused = s.refused := rfl
@[simp] theorem putWord_stepIdx (w : List Byte) : (putWord w s).stepIdx = s.stepIdx := rfl
@[simp] theorem putWord_now (w : List Byte) : (putWord w s).now = s.now := rfl
@[simp] theorem putWord_trace (w : List Byte) : (putWord w s).trace = s.trace := rfl
@[simp] theorem putWord_replies (w : List Byte) : (putWord w s).replies = s.replies := rfl
@[simp] theorem putWord_port (w : List Byte) : (putWord w s).port = .issue w :: s.port := rfl
@[simp] theorem putWord_radio (w : List Byte) : (putWord w s).radio = s.radio := rfl
@[simp] theorem putWord_delays (w : List Byte) : (putWord w s).delays = s.delays := rfl
@[simp] theorem putWord_choices (w : List Byte) : (putWord w s).choices = s.choices := rfl
@[simp] theorem putWord_cfg (w : List Byte) : (putWord w s).cfg = s.cfg := rfl

/-! ## powerOn -/

@[simp] theorem powerOn_phase : (powerOn s).phase = .uninit := rfl
@[simp] theorem powerOn_xferBusy : (powerOn s).xferBusy = false := rfl
@[simp] theorem powerOn_modeMirror : (powerOn s).modeMirror = none := rfl
@[simp] theorem powerOn_evAcc : (powerOn s).evAcc = [] := rfl
@[simp] theorem powerOn_evLast : (powerOn s).evLast = none := rfl
@[simp] theorem powerOn_lsAcc : (powerOn s).lsAcc = [] := rfl
@[simp] theorem powerOn_lsLast : (powerOn s).lsLast = none := rfl
@[simp] theorem powerOn_resetOut : (powerOn s).resetOut = .low := rfl
@[simp] theorem powerOn_nssOut : (powerOn s).nssOut = .high := rfl
@[simp] theorem powerOn_fatal : (powerOn s).fatal = none := rfl
@[simp] theorem powerOn_refused : (powerOn s).refused = none := rfl
@[simp] theorem powerOn_stepIdx : (powerOn s).stepIdx = 0 := rfl
@[simp] theorem powerOn_now : (powerOn s).now = s.now := rfl
@[simp] theorem powerOn_trace : (powerOn s).trace = s.trace := rfl
@[simp] theorem powerOn_replies : (powerOn s).replies = s.replies := rfl
@[simp] theorem powerOn_port : (powerOn s).port = s.port := rfl
@[simp] theorem powerOn_radio : (powerOn s).radio = s.radio := rfl
@[simp] theorem powerOn_delays : (powerOn s).delays = s.delays := rfl
@[simp] theorem powerOn_choices : (powerOn s).choices = s.choices := rfl
@[simp] theorem powerOn_cfg : (powerOn s).cfg = s.cfg := rfl

end Sys2Proof.Machine
end

