-- ==== Sys2Proof/Laws/Memory.lean ====
section
/-! SUPPORT. The radio's register file: a read after a write, and that every write keeps the canonical form. -/

namespace Sys2Proof.Machine

theorem Memory.wfFrom_of_le {lo hi : Nat} {m : Memory} (h : lo ≤ hi) (hw : Memory.wfFrom hi m = true) :
    Memory.wfFrom lo m = true := by
  cases m with
  | nil => rfl
  | cons p m =>
    simp only [Memory.wfFrom, Bool.and_eq_true, decide_eq_true_eq] at hw ⊢
    exact ⟨⟨⟨by omega, hw.1.1.2⟩, hw.1.2⟩, hw.2⟩

/-- An address below every entry holds its reset value. -/
theorem Memory.get_of_lt {a lo : Nat} {m : Memory} (h : a < lo) (hw : Memory.wfFrom lo m = true) :
    Memory.get a m = radioResetByte a := by
  induction m generalizing lo with
  | nil => rfl
  | cons p m ih =>
    simp only [Memory.wfFrom, Bool.and_eq_true, decide_eq_true_eq] at hw
    have hne : a ≠ p.1 := by omega
    simp only [Memory.get, hne, if_false]
    exact ih (by omega) hw.2

/-- A write keeps the canonical form. -/
theorem Memory.wfFrom_put {a lo : Nat} {v : Byte} {m : Memory} (hlo : lo ≤ a) (ha : a < 0x80)
    (hw : Memory.wfFrom lo m = true) : Memory.wfFrom lo (Memory.put a v m) = true := by
  induction m generalizing lo with
  | nil =>
    simp only [Memory.put]
    split
    · rfl
    · next hr => simp [Memory.wfFrom, hlo, ha, hr]
  | cons p m ih =>
    obtain ⟨b, w⟩ := p
    have hw' := hw
    simp only [Memory.wfFrom, Bool.and_eq_true, decide_eq_true_eq] at hw
    simp only [Memory.put]
    split
    · next hab =>
      split
      · exact hw'
      · next hr =>
        simp only [Memory.wfFrom, Bool.and_eq_true, decide_eq_true_eq]
        exact ⟨⟨⟨hlo, ha⟩, hr⟩, ⟨⟨by omega, hw.1.1.2⟩, hw.1.2⟩, hw.2⟩
    · next hab =>
      split
      · next hEq =>
        subst hEq
        split
        · exact Memory.wfFrom_of_le (by omega) hw.2
        · next hr =>
          simp only [Memory.wfFrom, Bool.and_eq_true, decide_eq_true_eq]
          exact ⟨⟨⟨hlo, ha⟩, hr⟩, hw.2⟩
      · next hne =>
        simp only [Memory.wfFrom, Bool.and_eq_true, decide_eq_true_eq]
        exact ⟨hw.1, ih (by omega) hw.2⟩

theorem Memory.wf_put {a : Nat} {v : Byte} {m : Memory} (ha : a < 0x80) (hw : Memory.wf m = true) :
    Memory.wf (Memory.put a v m) = true :=
  Memory.wfFrom_put (Nat.zero_le a) ha hw

/-- A burst keeps the canonical form. -/
theorem Memory.wf_putBytes {vs : List Byte} {a : Nat} {m : Memory} (hw : Memory.wf m = true) :
    Memory.wf (Memory.putBytes a vs m) = true := by
  induction vs generalizing a m with
  | nil => exact hw
  | cons v vs ih =>
    simp only [Memory.putBytes]
    apply ih
    split
    · next ha => exact Memory.wf_put ha hw
    · exact hw

/-- A write leaves every other register alone. -/
theorem Memory.get_put_of_ne {a b : Nat} {v : Byte} {m : Memory} (h : b ≠ a) :
    Memory.get b (Memory.put a v m) = Memory.get b m := by
  induction m with
  | nil =>
    simp only [Memory.put]
    split
    · rfl
    · simp [Memory.get, h]
  | cons p m ih =>
    obtain ⟨c, w⟩ := p
    simp only [Memory.put]
    split
    · split
      · rfl
      · simp [Memory.get, h]
    · split
      · next hEq =>
        subst hEq
        split <;> simp [Memory.get, h]
      · simp only [Memory.get, ih]

/-- A read after a write gives the value written. -/
theorem Memory.get_put_self {a lo : Nat} {v : Byte} {m : Memory} (hw : Memory.wfFrom lo m = true) :
    Memory.get a (Memory.put a v m) = some v := by
  induction m generalizing lo with
  | nil =>
    simp only [Memory.put]
    split
    · next hr => simp [Memory.get, hr]
    · simp [Memory.get]
  | cons p m ih =>
    obtain ⟨c, w⟩ := p
    have hw' := hw
    simp only [Memory.wfFrom, Bool.and_eq_true, decide_eq_true_eq] at hw
    simp only [Memory.put]
    split
    · next hac =>
      split
      · next hr =>
        rw [← hr]
        have hne : a ≠ c := by omega
        simp only [Memory.get, hne, if_false]
        exact Memory.get_of_lt (by omega) hw.2
      · simp [Memory.get]
    · next hac =>
      split
      · next hEq =>
        subst hEq
        split
        · next hr =>
          rw [← hr]
          exact Memory.get_of_lt (Nat.lt_succ_self a) hw.2
        · simp [Memory.get]
      · next hne =>
        simp only [Memory.get, hne, if_false]
        exact ih hw.2

/-- A burst leaves alone every register outside its addresses. -/
theorem Memory.get_putBytes_of_outside {vs : List Byte} {a b : Nat} {m : Memory}
    (h : b < a ∨ a + vs.length ≤ b) : Memory.get b (Memory.putBytes a vs m) = Memory.get b m := by
  induction vs generalizing a m with
  | nil => rfl
  | cons v vs ih =>
    simp only [List.length_cons] at h
    simp only [Memory.putBytes]
    rw [ih (by omega)]
    split
    · exact Memory.get_put_of_ne (by omega)
    · rfl

/-- A register inside a burst reads its byte afterwards. -/
theorem Memory.get_putBytes_inside {vs : List Byte} {a i : Nat} {m : Memory} (hw : Memory.wf m = true)
    (hi : i < vs.length) (hfit : a + vs.length ≤ 0x80) :
    Memory.get (a + i) (Memory.putBytes a vs m) = some (vs[i]) := by
  induction vs generalizing a i m with
  | nil => exact absurd hi (Nat.not_lt_zero i)
  | cons v vs ih =>
    simp only [List.length_cons] at hi hfit
    have ha : a < 0x80 := by omega
    simp only [Memory.putBytes, ha, if_true]
    cases i with
    | zero =>
      rw [Memory.get_putBytes_of_outside (by omega)]
      exact Memory.get_put_self hw
    | succ j =>
      have := ih (a := a + 1) (i := j) (m := Memory.put a v m) (Memory.wf_put ha hw) (by omega) (by omega)
      rw [show a + (j + 1) = a + 1 + j by omega]
      simpa using this

/-- Canonical register files that read alike are equal. -/
theorem Memory.eq_of_get_eq {m n : Memory} {lo : Nat} (hm : Memory.wfFrom lo m = true)
    (hn : Memory.wfFrom lo n = true) (h : ∀ a, Memory.get a m = Memory.get a n) : m = n := by
  induction m generalizing n lo with
  | nil =>
    cases n with
    | nil => rfl
    | cons q n =>
      simp only [Memory.wfFrom, Bool.and_eq_true, decide_eq_true_eq] at hn
      have := h q.1
      simp only [Memory.get, if_true] at this
      exact absurd this hn.1.2
  | cons p m ih =>
    obtain ⟨a, v⟩ := p
    have hm' := hm
    simp only [Memory.wfFrom, Bool.and_eq_true, decide_eq_true_eq] at hm
    cases n with
    | nil =>
      have := h a
      simp only [Memory.get, if_true] at this
      exact absurd this.symm hm.1.2
    | cons q n =>
      obtain ⟨b, w⟩ := q
      have hn' := hn
      simp only [Memory.wfFrom, Bool.and_eq_true, decide_eq_true_eq] at hn
      have hab : a = b := by
        rcases Nat.lt_trichotomy a b with hlt | heq | hgt
        · have := h a
          have hne : a ≠ b := by omega
          simp only [Memory.get, if_true, hne, if_false] at this
          rw [Memory.get_of_lt (Nat.lt_succ_of_lt hlt) hn.2] at this
          exact absurd this.symm hm.1.2
        · exact heq
        · have := h b
          have hne : b ≠ a := by omega
          simp only [Memory.get, if_true, hne, if_false] at this
          rw [Memory.get_of_lt (Nat.lt_succ_of_lt hgt) hm.2] at this
          exact absurd this hn.1.2
      subst hab
      have hv : v = w := by
        have := h a
        simpa [Memory.get] using this
      subst hv
      have : m = n := by
        apply ih hm.2 hn.2
        intro c
        by_cases hc : c = a
        · subst hc
          rw [Memory.get_of_lt (Nat.lt_succ_self c) hm.2, Memory.get_of_lt (Nat.lt_succ_self c) hn.2]
        · have := h c
          simpa [Memory.get, hc] using this
      rw [this]

/-- The register file before any write is canonical. -/
theorem reset_memory_wf : Memory.wf State.reset.radio.regs = true := rfl

theorem Radio.afterRead_regs (c : Config) (a : Addr) (r : Radio) : (r.afterRead c a).regs = r.regs := by
  unfold Radio.afterRead
  split
  · rfl
  · split <;> rfl

theorem Radio.wf_afterWrite {c : Config} {a : Addr} {d : List Byte} {r : Radio} (h : Memory.wf r.regs = true) :
    Memory.wf (r.afterWrite c a d).regs = true := by
  unfold Radio.afterWrite
  split
  · exact h
  · split
    · exact h
    · exact Memory.wf_putBytes h

theorem Radio.wf_afterReset {r : Radio} (h : Memory.wf r.regs = true) : Memory.wf r.afterReset.regs = true := by
  unfold Radio.afterReset
  split
  · exact h
  · rfl

/-- A write changes no register outside its burst, and none at all at the FIFO port. -/
theorem Radio.get_afterWrite_of_outside {c : Config} {a : Addr} {d : List Byte} {r : Radio} {b : Nat}
    (h : a ≠ c.regs.fifo → b < a.toNat ∨ a.toNat + d.length ≤ b) :
    Memory.get b (r.afterWrite c a d).regs = Memory.get b r.regs := by
  unfold Radio.afterWrite
  split
  · rfl
  · split
    · rfl
    · next hf => exact Memory.get_putBytes_of_outside (h hf)

@[simp] theorem Radio.afterRead_resets (c : Config) (a : Addr) (r : Radio) : (r.afterRead c a).resets = r.resets := by
  unfold Radio.afterRead
  split
  · rfl
  · split <;> rfl

@[simp] theorem Radio.afterWrite_resets (c : Config) (a : Addr) (d : List Byte) (r : Radio) :
    (r.afterWrite c a d).resets = r.resets := by
  unfold Radio.afterWrite
  split
  · rfl
  · split <;> rfl

/-- A register whose content is known holds what is known. -/
theorem Radio.reg_of_get {r : Radio} {a : Nat} {v : Byte} (h : Memory.get a r.regs = some v) : r.reg a = v := by
  simp [Radio.reg, h]

/-- A register holds the same byte as long as what is known of it and the count of resets stay. -/
theorem Radio.reg_congr {q r : Radio} {a : Nat} (h : Memory.get a q.regs = Memory.get a r.regs)
    (hr : q.resets = r.resets) : q.reg a = r.reg a := by
  simp only [Radio.reg, h, hr]

/-- R38: a plain register of the reference radio is answered from the register file. -/
theorem referenceAnswer_plain {c : Config} {r : Radio} {a : Addr} (hf : a ≠ c.regs.fifo) (hv : a ≠ c.regs.version)
    (h1 : a ≠ c.regs.irqflags1) (h2 : a ≠ c.regs.irqflags2) : referenceAnswer c r a = some (r.reg a.toNat) := by
  simp [referenceAnswer, hf, hv, h1, h2]

/-- R38: a burst asks for TX exactly when one of its bytes lands on OPMODE with the TX code in the mode field. -/
theorem asksTx_iff {c : Config} {a : Addr} {d : List Byte} :
    asksTx c a d = true ↔
      ∃ k v, a.toNat + k = c.regs.opmode.toNat ∧ d[k]? = some v ∧ modeField c v = modeCode .tx := by
  unfold asksTx
  constructor
  · intro h
    rw [Bool.and_eq_true, decide_eq_true_eq] at h
    obtain ⟨hle, h⟩ := h
    split at h
    · cases h
    · next v hv => exact ⟨_, v, by omega, hv, by simpa using h⟩
  · rintro ⟨k, v, hk, hv, hm⟩
    rw [← hk, Nat.add_sub_cancel_left, hv]
    simp [hm]

theorem Radio.afterRead_kind (c : Config) (a : Addr) (r : Radio) : (r.afterRead c a).kind = r.kind := by
  unfold Radio.afterRead
  split
  · rfl
  · split <;> rfl

theorem Radio.afterWrite_kind (c : Config) (a : Addr) (d : List Byte) (r : Radio) :
    (r.afterWrite c a d).kind = r.kind := by
  unfold Radio.afterWrite
  split
  · rfl
  · split <;> rfl

theorem Radio.afterReset_kind (r : Radio) : r.afterReset.kind = r.kind := by
  unfold Radio.afterReset
  split <;> rfl

end Sys2Proof.Machine
end

