-- ==== Sys2Proof/Laws/Bus.lean ====
section
/-! SUPPORT. What the block can do on its bus, said once: `Bus s t` holds when `t` comes from `s` by transfers, waits and
changes of the mode mirror. Every action of a command's rule but the reset pulse is such a sequence, so a property of all of
them is proved by one induction over `Bus`. -/

namespace Sys2Proof.Machine

/-- `t` comes from `s` by read transfers, write transfers of data that fits, waits, and changes of the mode mirror. -/
inductive Bus (s : State) : State → Prop
  | refl : Bus s s
  | read {t : State} (a : Addr) (h : Bus s t) (hb : t.xferBusy = false) : Bus s (afterRead a t)
  | write {t : State} (a : Addr) (d : List Byte) (h : Bus s t) (hb : t.xferBusy = false) (hd : d ≠ [])
      (hf : burstFits t.cfg a d.length = true) : Bus s (afterWrite a d t)
  | wait {t : State} (n : Nat) (h : Bus s t) : Bus s (wait n t)
  | mirror {t : State} (m : Option Mode) (h : Bus s t) : Bus s (setMirror m t)

theorem Bus.trans {s t u : State} (h : Bus s t) (k : Bus t u) : Bus s u := by
  induction k with
  | refl => exact h
  | read a _ hb ih => exact .read a ih hb
  | write a d _ hb hd hf ih => exact .write a d ih hb hd hf
  | wait n _ ih => exact .wait n ih
  | mirror m _ ih => exact .mirror m ih

/-! ## Sequencing -/

@[simp] theorem Res.bind_ok {α β : Type} (a : α) (s : State) (f : α → State → Res β) : (Res.ok a s).bind f = f a s := rfl

@[simp] theorem Res.bind_err {α β : Type} (e : CmdError) (s : State) (f : α → State → Res β) :
    (Res.err e s : Res α).bind f = .err e s := rfl

@[simp] theorem Res.state_ok {α : Type} (a : α) (s : State) : (Res.ok a s).state = s := rfl

@[simp] theorem Res.state_err {α : Type} (e : CmdError) (s : State) : (Res.err e s : Res α).state = s := rfl

/-- A sequence of two actions completes when both do. -/
theorem Res.bind_eq_ok {α β : Type} {r : Res α} {f : α → State → Res β} {b : β} {t : State}
    (h : r.bind f = .ok b t) : ∃ a u, r = .ok a u ∧ f a u = .ok b t := by
  cases r with
  | ok a u => exact ⟨a, u, rfl, h⟩
  | err e u => cases h

/-- A sequence of two actions fails when the first does, or the second after it. -/
theorem Res.bind_eq_err {α β : Type} {r : Res α} {f : α → State → Res β} {e : CmdError} {t : State}
    (h : r.bind f = .err e t) : r = .err e t ∨ ∃ a u, r = .ok a u ∧ f a u = .err e t := by
  cases r with
  | ok a u => exact .inr ⟨a, u, rfl, h⟩
  | err e' u => exact .inl (by simpa using h)

theorem Bus.bind {α β : Type} {s : State} {r : Res α} {f : α → State → Res β} (h : Bus s r.state)
    (hf : ∀ a t, r = .ok a t → Bus t (f a t).state) : Bus s (r.bind f).state := by
  cases r with
  | ok a t => exact h.trans (hf a t rfl)
  | err e t => exact h

/-! ## What every bus sequence keeps and extends -/

/-- The variables no bus activity touches. -/
theorem Bus.frame {s t : State} (h : Bus s t) : BusFrame s t := by
  induction h with
  | refl => exact ⟨rfl, rfl, rfl, rfl, rfl, rfl, rfl, rfl, rfl⟩
  | read a _ _ ih => exact ⟨ih.1, ih.2, ih.3, ih.4, ih.5, ih.6, ih.7, ih.8, ih.9⟩
  | write a d _ _ _ _ ih => exact ⟨ih.1, ih.2, ih.3, ih.4, ih.5, ih.6, ih.7, ih.8, ih.9⟩
  | wait n _ ih => exact ⟨ih.1, ih.2, ih.3, ih.4, ih.5, ih.6, ih.7, ih.8, ih.9⟩
  | mirror m _ ih => exact ⟨ih.1, ih.2, ih.3, ih.4, ih.5, ih.6, ih.7, ih.8, ih.9⟩

theorem Bus.phase {s t : State} (h : Bus s t) : t.phase = s.phase := by
  induction h with
  | refl => rfl
  | read a _ _ ih => exact ih
  | write a d _ _ _ _ ih => exact ih
  | wait n _ ih => exact ih
  | mirror m _ ih => exact ih

theorem Bus.replies {s t : State} (h : Bus s t) : t.replies = s.replies := by
  induction h with
  | refl => rfl
  | read a _ _ ih => exact ih
  | write a d _ _ _ _ ih => exact ih
  | wait n _ ih => exact ih
  | mirror m _ ih => exact ih

theorem Bus.cfg {s t : State} (h : Bus s t) : t.cfg = s.cfg := h.frame.cfg

/-- Only a reset pulse resets the radio. -/
theorem Bus.resets {s t : State} (h : Bus s t) : t.radio.resets = s.radio.resets := by
  induction h with
  | refl => rfl
  | read a _ _ ih => simpa using ih
  | write a d _ _ _ _ ih => simpa using ih
  | wait n _ ih => exact ih
  | mirror m _ ih => exact ih

/-- No transfer is left in flight that was not in flight before. -/
theorem Bus.xferBusy {s t : State} (h : Bus s t) : t.xferBusy = s.xferBusy := by
  induction h with
  | refl => rfl
  | read a _ hb ih => rw [← ih]; exact hb.symm
  | write a d _ hb _ _ ih => rw [← ih]; exact hb.symm
  | wait n _ ih => exact ih
  | mirror m _ ih => exact ih

/-- NSS stays high between transfers. -/
theorem Bus.nssHigh {s t : State} (h : Bus s t) (hs : s.nssOut = .high) : t.nssOut = .high := by
  induction h with
  | refl => exact hs
  | read a _ _ _ => rfl
  | write a d _ _ _ _ _ => rfl
  | wait n _ ih => exact ih
  | mirror m _ ih => exact ih

/-- Time does not run backwards. -/
theorem Bus.now_le {s t : State} (h : Bus s t) : s.now ≤ t.now := by
  induction h with
  | refl => exact Nat.le_refl _
  | read a _ _ ih => simp only [afterRead_now]; omega
  | write a d _ _ _ _ ih => simp only [afterWrite_now]; omega
  | wait n _ ih => simp only [wait_now]; omega
  | mirror m _ ih => exact ih

theorem Bus.memory_wf {s t : State} (h : Bus s t) (hs : Memory.wf s.radio.regs = true) :
    Memory.wf t.radio.regs = true := by
  induction h with
  | refl => exact hs
  | read a _ _ ih => simpa only [afterRead_radio, Radio.afterRead_regs] using ih
  | write a d _ _ _ _ ih => exact Radio.wf_afterWrite ih
  | wait n _ ih => exact ih
  | mirror m _ ih => exact ih

/-- Bit 7 of a read frame's first byte is clear. -/
theorem readHeader_bit7 (a : Addr) : (readHeader a).getLsbD 7 = false := by
  simp [readHeader]

/-- Bit 7 of a write frame's first byte is set. -/
theorem writeHeader_bit7 (a : Addr) : (writeHeader a).getLsbD 7 = true := by
  simp [writeHeader]

/-- The address comes back from a write frame's first byte. -/
theorem writeHeader_addr (a : Addr) : (writeHeader a).setWidth 7 = a := by
  unfold writeHeader
  rw [BitVec.setWidth_or, BitVec.setWidth_setWidth_of_le a (by omega)]
  simp

/-- The trace grows by events that are read frames, write frames, or waits, and no register outside the write frames
changes. -/
theorem Bus.trace {s t : State} (h : Bus s t) :
    ∃ es, t.trace = s.trace ++ es ∧ (∀ e ∈ es, framed e = true) ∧
      ∀ a, (∀ e ∈ es, a ∉ writtenAddrs s.cfg e) → Memory.get a t.radio.regs = Memory.get a s.radio.regs := by
  induction h with
  | refl => exact ⟨[], by simp, by simp, fun _ _ => rfl⟩
  | @read t a _ _ ih =>
    obtain ⟨es, h1, h2, h3⟩ := ih
    refine ⟨es ++ [.transfer (readMosi a) [freeMiso t (readMosi a) 0, radioReply a t]], ?_, ?_, ?_⟩
    · simp [h1]
    · intro e he
      rcases List.mem_append.1 he with he | he
      · exact h2 e he
      · rw [List.mem_singleton.1 he]
        simp only [framed, readMosi, isReadFrame, readHeader_bit7]
        rfl
    · intro b hb
      rw [afterRead_radio, Radio.afterRead_regs]
      exact h3 b fun e he => hb e (List.mem_append_left _ he)
  | @write t a d hb' _ hd _ ih =>
    obtain ⟨es, h1, h2, h3⟩ := ih
    have hc : t.cfg = s.cfg := Bus.cfg hb'
    refine ⟨es ++ [.transfer (writeMosi a d) (writeMiso a d t)], ?_, ?_, ?_⟩
    · simp [h1]
    · intro e he
      rcases List.mem_append.1 he with he | he
      · exact h2 e he
      · rw [List.mem_singleton.1 he]
        cases d with
        | nil => exact absurd rfl hd
        | cons x xs => simp [framed, writeMosi, isWriteFrame, writeHeader_bit7, writeMiso]
    · intro b hb
      rw [afterWrite_radio, Radio.get_afterWrite_of_outside, h3 b fun e he => hb e (List.mem_append_left _ he)]
      intro hf
      have := hb _ (List.mem_append_right es (List.mem_singleton.2 rfl))
      rw [hc] at hf
      simp only [writtenAddrs, writeMosi, writeHeader_bit7, true_and, writeHeader_addr, ne_eq, hf, not_false_eq_true,
        if_true, List.mem_map, List.mem_range, not_exists, not_and] at this
      by_contra hout
      exact this (b - a.toNat) (by omega) (by omega)
  | @wait t n _ ih =>
    obtain ⟨es, h1, h2, h3⟩ := ih
    refine ⟨es ++ [.wait n], ?_, ?_, ?_⟩
    · simp [h1]
    · intro e he
      rcases List.mem_append.1 he with he | he
      · exact h2 e he
      · rw [List.mem_singleton.1 he]; rfl
    · intro b hb
      exact h3 b fun e he => hb e (List.mem_append_left _ he)
  | mirror m _ ih => exact ih

/-! ## The primitives -/

theorem regRead_idle {s : State} (h : s.xferBusy = false) (a : Addr) :
    regRead a s = .ok (radioReply a s) (afterRead a s) := by
  simp [regRead, h]

theorem regWrite_idle {s : State} (h : s.xferBusy = false) (a : Addr) (d : List Byte) :
    regWrite a d s = .ok () (afterWrite a d s) := by
  simp [regWrite, h]

/-- R91: a transfer started while one is in flight makes no bus activity. -/
theorem regRead_busy {s : State} (h : s.xferBusy = true) (a : Addr) : regRead a s = .err .concurrentTransfer s := by
  simp [regRead, h]

theorem regWrite_busy {s : State} (h : s.xferBusy = true) (a : Addr) (d : List Byte) :
    regWrite a d s = .err .concurrentTransfer s := by
  simp [regWrite, h]

theorem regRead_bus (a : Addr) (s : State) : Bus s (regRead a s).state := by
  cases h : s.xferBusy with
  | true => rw [regRead_busy h]; exact .refl
  | false => rw [regRead_idle h]; exact .read a .refl h

theorem regWrite_bus {a : Addr} {d : List Byte} {s : State} (hd : d ≠ []) (hf : burstFits s.cfg a d.length = true) :
    Bus s (regWrite a d s).state := by
  cases h : s.xferBusy with
  | true => rw [regWrite_busy h]; exact .refl
  | false => rw [regWrite_idle h]; exact .write a d .refl h hd hf

/-- One byte fits at every address (R53). -/
theorem burstFits_one (c : Config) (a : Addr) : burstFits c a 1 = true := by
  have := a.isLt
  simp only [burstFits, Bool.or_eq_true, decide_eq_true_eq]
  right
  omega

theorem regWrite_one_bus (a : Addr) (v : Byte) (s : State) : Bus s (regWrite a [v] s).state :=
  regWrite_bus (by simp) (burstFits_one _ _)

theorem rmw_bus (a : Addr) (x y : Byte) (s : State) : Bus s (rmw a x y s).state :=
  (regRead_bus a s).bind fun _ _ _ => regWrite_one_bus _ _ _

theorem msbFirst_length (k v : Nat) : (msbFirst k v).length = k := by
  induction k generalizing v with
  | zero => rfl
  | succ k ih => simpa [msbFirst, beBytes] using ih v

theorem msbFirst_ne_nil {k v : Nat} (h : 0 < k) : msbFirst k v ≠ [] := by
  intro hn
  have := msbFirst_length k v
  rw [hn] at this
  simp at this
  omega

/-! ## The bounded poll -/

theorem poll_bus (reg : Addr) (flag : Byte → Bool) (limit period t0 n : Nat) (s : State) :
    Bus s (poll reg flag limit period t0 n s).state := by
  induction n generalizing s with
  | zero => exact .refl
  | succ n ih =>
    unfold poll
    refine (regRead_bus reg s).bind fun v t _ => ?_
    split
    · exact .refl
    · split
      · exact .refl
      · exact (Bus.wait _ .refl).trans (ih _)

/-- With no transfer in flight a poll raises no error: it answers whether it saw the flag. -/
theorem poll_ok {reg : Addr} {flag : Byte → Bool} {limit period t0 n : Nat} {s : State} (h : s.xferBusy = false) :
    ∃ b t, poll reg flag limit period t0 n s = .ok b t := by
  induction n generalizing s with
  | zero => exact ⟨false, s, rfl⟩
  | succ n ih =>
    unfold poll
    rw [regRead_idle h]
    simp only [Res.bind_ok]
    split
    · exact ⟨_, _, rfl⟩
    · split
      · exact ⟨_, _, rfl⟩
      · exact ih (by simp)

/-- R96: a poll that gives up has seen the deadline pass, whenever its bound allows a wait of the whole limit. -/
theorem poll_expired {reg : Addr} {flag : Byte → Bool} {limit period t0 n : Nat} {s t : State} (ht : t0 ≤ s.now)
    (hb : limit ≤ s.now - t0 + n * period) (h : poll reg flag limit period t0 (n + 1) s = .ok false t) :
    limit ≤ t.now - t0 := by
  induction n generalizing s with
  | zero =>
    unfold poll at h
    obtain ⟨v, u, hr, h⟩ := Res.bind_eq_ok h
    have hu : s.now ≤ u.now := by
      have := (regRead_bus reg s).now_le
      rwa [hr] at this
    split at h
    · cases h
    · split at h
      · cases h; omega
      · unfold poll at h
        cases h
        simp only [wait_now]
        omega
  | succ n ih =>
    unfold poll at h
    obtain ⟨v, u, hr, h⟩ := Res.bind_eq_ok h
    have hu : s.now ≤ u.now := by
      have := (regRead_bus reg s).now_le
      rwa [hr] at this
    split at h
    · cases h
    · split at h
      · cases h; omega
      · refine ih ?_ ?_ h
        · simp only [wait_now]; omega
        simp only [wait_now]
        rw [Nat.succ_mul] at hb
        omega

/-- `pollReads` reads allow waits of the whole limit. -/
theorem pollReads_allow (limit period : Nat) (hp : 0 < period) : limit ≤ (pollReads limit period - 1) * period := by
  simp only [pollReads, Nat.add_sub_cancel]
  have h1 := Nat.div_add_mod (limit + period - 1) period
  have h2 := Nat.mod_lt (limit + period - 1) hp
  rw [Nat.mul_comm] at h1
  omega

/-- The bound `pollReads` on the reads of a poll never cuts the poll short: more of them change nothing. -/
theorem poll_more {reg : Addr} {flag : Byte → Bool} {limit period t0 n : Nat} {s : State} (ht : t0 ≤ s.now)
    (hb : limit ≤ s.now - t0 + n * period) (k : Nat) :
    poll reg flag limit period t0 (n + 1 + k) s = poll reg flag limit period t0 (n + 1) s := by
  induction n generalizing s with
  | zero =>
    rw [Nat.zero_add, Nat.add_comm 1 k]
    unfold poll
    cases hr : regRead reg s with
    | err e u => rfl
    | ok v u =>
      have hu : s.now ≤ u.now := by
        have := (regRead_bus reg s).now_le
        rwa [hr] at this
      simp only [Res.bind_ok]
      split
      · rfl
      · have : u.now - t0 ≥ limit := by omega
        simp [this]
  | succ n ih =>
    rw [show n + 1 + 1 + k = (n + 1 + k) + 1 by omega]
    rw [poll, poll]
    cases hr : regRead reg s with
    | err e u => rfl
    | ok v u =>
      have hu : s.now ≤ u.now := by
        have := (regRead_bus reg s).now_le
        rwa [hr] at this
      simp only [Res.bind_ok]
      split
      · rfl
      · split
        · rfl
        · apply ih
          · simp only [wait_now]; omega
          simp only [wait_now]
          rw [Nat.succ_mul] at hb
          omega

/-- R96, R113: the reads `pollReads` allows are enough, whatever the waits and transfers take. -/
theorem poll_bound_suffices {reg : Addr} {flag : Byte → Bool} {limit period : Nat} {s : State} (hp : 0 < period) (k : Nat) :
    poll reg flag limit period s.now (pollReads limit period + k) s =
      poll reg flag limit period s.now (pollReads limit period) s := by
  have h := pollReads_allow limit period hp
  obtain ⟨n, hn⟩ : ∃ n, pollReads limit period = n + 1 := ⟨_, rfl⟩
  rw [hn] at h ⊢
  exact poll_more (Nat.le_refl _) (by simpa using h) k

end Sys2Proof.Machine
end

