-- ==== Sys2Proof/Laws/Commands.lean ====
section
/-! SUPPORT. What a command can do, said once: `exec_cases` gives the three ways a command ends, with what its rule has done
on the way; the lemmas before it say of each action that it is a bus sequence and which errors it can raise. -/

namespace Sys2Proof.Machine

/-! ## Refusal checks -/

@[simp] theorem check_eq_none {ok : Bool} {r : Reason} : check ok r = none ↔ ok = true := by
  cases ok <;> simp [check]

theorem check_eq_some {ok : Bool} {r q : Reason} : check ok r = some q ↔ ok = false ∧ q = r := by
  cases ok <;> simp [check, eq_comm]

@[simp] theorem firstRefusal_nil : firstRefusal [] = none := rfl

@[simp] theorem firstRefusal_cons_none {x : Option Reason} {l : List (Option Reason)} :
    firstRefusal (x :: l) = none ↔ x = none ∧ firstRefusal l = none := by
  cases x <;> simp [firstRefusal]

@[simp] theorem firstRefusal_none_cons (l : List (Option Reason)) : firstRefusal (none :: l) = firstRefusal l := rfl

@[simp] theorem firstRefusal_some_cons (r : Reason) (l : List (Option Reason)) : firstRefusal (some r :: l) = some r := rfl

/-- The phase checks pass exactly when the block is READY, or UNINIT and the command is one admitted there (R141). -/
theorem phaseRefusal_eq_none {n : CmdName} {s : State} :
    phaseRefusal n s = none ↔ s.phase = .ready ∨ s.phase = .uninit ∧ admittedUninit n = true := by
  unfold phaseRefusal
  cases s.phase <;> cases admittedUninit n <;> simp

/-- A command is admitted exactly when its phase, its operands and its own checks allow it (R141). -/
theorem admission_eq_none {i : Instr} {ch : Option Reason} {s : State} :
    admission i ch s = none ↔
      (s.phase = .ready ∨ s.phase = .uninit ∧ admittedUninit i.name = true) ∧ i.wf = true ∧ ch = none := by
  simp [admission, phaseRefusal_eq_none, operandChecks]

/-- A refused command changes `refused` and gives its reply, nothing else (R140). -/
theorem command_refused {i : Instr} {ch : Option Reason} {body : State → Res CmdResult} {s : State} {r : Reason}
    (h : admission i ch s = some r) : command i ch body s = .next (refuse r s) := by
  simp [command, admitAndRun, h]

/-- An admitted command runs its rule from the BUSY state (R141). -/
theorem command_admitted {i : Instr} {ch : Option Reason} {body : State → Res CmdResult} {s : State}
    (h : admission i ch s = none) :
    command i ch body s = .next (endCommand i.name s.phase (body (startCommand s))) := by
  simp [command, admitAndRun, h]

/-! ## Errors an action can raise when no transfer is in flight -/

/-- An action raises no fatal error. -/
def NoFatal {α : Type} (r : Res α) : Prop := ∀ e t, r = .err e t → e.isFatal = false

theorem NoFatal.ok {α : Type} (a : α) (s : State) : NoFatal (Res.ok a s) := fun _ _ h => by cases h

theorem NoFatal.err {α : Type} {e : CmdError} {s : State} (h : e.isFatal = false) : NoFatal (Res.err e s : Res α) :=
  fun _ _ k => by cases k; exact h

theorem NoFatal.bind {α β : Type} {r : Res α} {f : α → State → Res β} (h : NoFatal r)
    (hf : ∀ a t, r = .ok a t → NoFatal (f a t)) : NoFatal (r.bind f) := by
  intro e t k
  rcases Res.bind_eq_err k with k | ⟨a, u, k, k'⟩
  · exact h e t k
  · exact hf a u k e t k'

theorem regRead_noFatal {s : State} (h : s.xferBusy = false) (a : Addr) : NoFatal (regRead a s) := by
  rw [regRead_idle h]; exact .ok _ _

theorem regWrite_noFatal {s : State} (h : s.xferBusy = false) (a : Addr) (d : List Byte) : NoFatal (regWrite a d s) := by
  rw [regWrite_idle h]; exact .ok _ _

/-- After an action that is a bus sequence no transfer is in flight, if none was. -/
theorem idle_after {α : Type} {r : Res α} {a : α} {s t : State} (hb : Bus s r.state) (h : s.xferBusy = false)
    (hr : r = .ok a t) : t.xferBusy = false := by
  rw [hr] at hb
  rw [← h]
  exact hb.xferBusy

theorem regWrite_ok_idle {a : Addr} {d : List Byte} {s t : State} (k : regWrite a d s = .ok () t) : t.xferBusy = false := by
  unfold regWrite at k
  split at k
  · cases k
  · cases k; rfl

theorem rmw_noFatal {s : State} (h : s.xferBusy = false) (a : Addr) (x y : Byte) : NoFatal (rmw a x y s) :=
  (regRead_noFatal h a).bind fun _ _ hr => regWrite_noFatal (idle_after (regRead_bus a s) h hr) _ _

/-! ## Mode changes (R96, R97) -/

theorem pollModeReady_bus (m : Mode) (s : State) : Bus s (pollModeReady m s).state := by
  refine (poll_bus _ _ _ _ _ _ s).bind fun b t _ => ?_
  cases b <;> exact .refl

theorem setMode_bus (m : Mode) (s : State) : Bus s (setMode m s).state := by
  refine (regRead_bus _ s).bind fun v t _ => ?_
  split
  · exact .mirror _ .refl
  · refine (regWrite_one_bus _ _ t).bind fun _ u _ => ?_
    refine (Bus.mirror none .refl).trans ((pollModeReady_bus m _).bind fun _ w _ => ?_)
    exact .mirror _ .refl

/-- The mode poll raises nothing but the timeout of the requested mode, after its deadline (R96, R136). -/
theorem pollModeReady_err {m : Mode} {s t : State} {e : CmdError} (h : s.xferBusy = false)
    (k : pollModeReady m s = .err e t) : e = .modeTimeout m ∧ s.now + tModeTimeout ≤ t.now ∧ t.modeMirror = s.modeMirror := by
  have hp : ∀ {n : Nat} {s u : State} {b : Bool} {reg : Addr} {fl : Byte → Bool} {t0 : Nat},
      poll reg fl tModeTimeout tModePoll t0 n s = .ok b u → u.modeMirror = s.modeMirror := by
    intro n
    induction n with
    | zero => intro s u b reg fl t0 hk; cases hk; rfl
    | succ n ih =>
      intro s u b reg fl t0 hk
      unfold poll at hk
      obtain ⟨v, w, hr, hk⟩ := Res.bind_eq_ok hk
      have hw : w.modeMirror = s.modeMirror := by
        unfold regRead at hr
        split at hr
        · cases hr
        · cases hr; rfl
      split at hk
      · cases hk; exact hw
      · split at hk
        · cases hk; exact hw
        · rw [ih hk]; exact hw
  rcases Res.bind_eq_err k with k | ⟨b, u, k, k'⟩
  · obtain ⟨b, u, hb⟩ := poll_ok (reg := s.cfg.regs.irqflags1) (flag := modeReady s.cfg) (limit := tModeTimeout)
      (period := tModePoll) (t0 := s.now) (n := pollReads tModeTimeout tModePoll) h
    rw [hb] at k
    cases k
  · cases b with
    | true => cases k'
    | false =>
      have hn : pollReads tModeTimeout tModePoll = (pollReads tModeTimeout tModePoll - 1) + 1 := rfl
      have ha := pollReads_allow tModeTimeout tModePoll (by decide)
      rw [hn] at k
      have hx := poll_expired (Nat.le_refl _) (by omega) k
      have hm := hp k
      have hle : s.now ≤ u.now := by
        have := (poll_bus s.cfg.regs.irqflags1 (modeReady s.cfg) tModeTimeout tModePoll s.now
          (pollReads tModeTimeout tModePoll - 1 + 1) s).now_le
        rwa [k] at this
      cases k'
      exact ⟨rfl, by omega, hm⟩

/-- SET_MODE's rule raises nothing but the timeout of its mode, at least `T_MODE_TIMEOUT` after it began; the mirror is then
UNKNOWN (R97). -/
theorem setMode_err {m : Mode} {s t : State} {e : CmdError} (h : s.xferBusy = false) (k : setMode m s = .err e t) :
    e = .modeTimeout m ∧ s.now + tModeTimeout ≤ t.now ∧ t.modeMirror = none := by
  unfold setMode at k
  rw [regRead_idle h] at k
  simp only [Res.bind_ok] at k
  split at k
  · cases k
  · rw [regWrite_idle (by simp)] at k
    simp only [Res.bind_ok] at k
    rcases Res.bind_eq_err k with k | ⟨_, _, _, k⟩
    · have := pollModeReady_err (by simp) k
      refine ⟨this.1, ?_, this.2.2⟩
      have h2 := this.2.1
      simp only [setMirror_now, afterWrite_now, afterRead_now] at h2
      omega
    · cases k

/-- When SET_MODE's rule completes the mirror is the mode (R97). -/
theorem setMode_ok {m : Mode} {s t : State} (k : setMode m s = .ok () t) : t.modeMirror = some m := by
  unfold setMode at k
  obtain ⟨v, u, _, k⟩ := Res.bind_eq_ok k
  split at k
  · cases k; rfl
  · obtain ⟨_, w, _, k⟩ := Res.bind_eq_ok k
    obtain ⟨_, x, _, k⟩ := Res.bind_eq_ok k
    cases k; rfl

theorem setMode_noFatal {s : State} (h : s.xferBusy = false) (m : Mode) : NoFatal (setMode m s) := by
  intro e t k
  rw [(setMode_err h k).1]
  rfl

/-! ## The rules of the bus commands -/

theorem setHighPower_bus (s : State) : Bus s (setHighPower s).state :=
  (rmw_bus _ _ _ s).bind fun _ t _ => rmw_bus _ _ _ t

theorem setHighPower_noFatal {s : State} (h : s.xferBusy = false) : NoFatal (setHighPower s) :=
  (rmw_noFatal h _ _ _).bind fun _ _ hr => rmw_noFatal (idle_after (rmw_bus _ _ _ s) h hr) _ _ _

theorem writeBwReg_bus (a : Addr) (p : Nat × Nat) (s : State) : Bus s (writeBwReg a p s).state := by
  unfold writeBwReg
  split
  · exact rmw_bus _ _ _ s
  · exact regWrite_one_bus _ _ s

theorem writeBwReg_noFatal {s : State} (h : s.xferBusy = false) (a : Addr) (p : Nat × Nat) :
    NoFatal (writeBwReg a p s) := by
  unfold writeBwReg
  split
  · exact rmw_noFatal h _ _ _
  · exact regWrite_noFatal h _ _

theorem writeRxBw_bus (p : Nat × Nat) (s : State) : Bus s (writeRxBw p s).state := by
  refine (writeBwReg_bus _ p s).bind fun _ t _ => ?_
  split
  · exact writeBwReg_bus _ p t
  · exact .refl

theorem writeRxBw_noFatal {s : State} (h : s.xferBusy = false) (p : Nat × Nat) : NoFatal (writeRxBw p s) := by
  refine (writeBwReg_noFatal h _ p).bind fun _ t hr => ?_
  split
  · exact writeBwReg_noFatal (idle_after (writeBwReg_bus _ p s) h hr) _ p
  · exact .ok _ _

theorem searchAndWriteBw_bus (rc : RadioConfig) (s : State) : Bus s (searchAndWriteBw rc s).state := by
  unfold searchAndWriteBw
  split
  · exact .refl
  · exact writeRxBw_bus _ s

theorem searchAndWriteBw_noFatal {s : State} (h : s.xferBusy = false) (rc : RadioConfig) :
    NoFatal (searchAndWriteBw rc s) := by
  unfold searchAndWriteBw
  split
  · exact .err rfl
  · exact writeRxBw_noFatal h _

/-- What SET_CONFIG's checks leave of its bursts (R90, R140). -/
theorem setConfigRefusal_none {c : Config} {rc : RadioConfig} (h : setConfigRefusal c rc = none) :
    burstFits c c.regs.frf 3 = true ∧ (rc.bitRateBps > 0 → burstFits c c.regs.bitrate 2 = true) ∧
      (usesDeviation rc = true → burstFits c c.regs.fdev 2 = true) := by
  simp only [setConfigRefusal, firstRefusal_cons_none, check_eq_none, Bool.or_eq_true, decide_eq_true_eq,
    Bool.not_eq_true', firstRefusal_nil, and_true] at h
  refine ⟨h.2.1, fun hb => ?_, fun hu => ?_⟩
  · rcases h.2.2.2.1 with h0 | h0
    · omega
    · exact h0
  · rcases h.2.2.2.2.2 with h0 | h0
    · rw [hu] at h0; cases h0
    · exact h0

theorem setConfig_bus {rc : RadioConfig} {s : State} (h : setConfigRefusal s.cfg rc = none) :
    Bus s (setConfig rc s).state := by
  obtain ⟨h1, h2, h3⟩ := setConfigRefusal_none h
  refine (setMode_bus _ s).bind fun _ t hr => ?_
  have ct : t.cfg = s.cfg := by have := (setMode_bus .standby s).cfg; rwa [hr] at this
  have b1 : Bus t (writeReg24 t.cfg.regs.frf (frfValue rc.carrierFreqHz) t).state := by
    refine regWrite_bus (msbFirst_ne_nil (by omega)) ?_
    rw [msbFirst_length, ct]; exact h1
  refine b1.bind fun _ u hu => ?_
  have cu : u.cfg = s.cfg := by have := b1.cfg; rw [hu] at this; exact this.trans ct
  refine (regWrite_one_bus _ _ u).bind fun _ w hw => ?_
  have cw : w.cfg = s.cfg := by have := (regWrite_one_bus u.cfg.regs.datamodul rc.modulationFlags u).cfg; rw [hw] at this; exact this.trans cu
  have b2 : Bus w (writeBitRate rc w).state := by
    unfold writeBitRate
    split
    · next hb =>
      refine regWrite_bus (msbFirst_ne_nil (by omega)) ?_
      rw [msbFirst_length, cw]; exact h2 hb
    · exact .refl
  refine b2.bind fun _ x hx => ?_
  have cx : x.cfg = s.cfg := by have := b2.cfg; rw [hx] at this; exact this.trans cw
  unfold writeDeviation
  split
  · next hd =>
    have b3 : Bus x (writeReg16 x.cfg.regs.fdev (fdValue rc.freqDeviationHz) x).state := by
      refine regWrite_bus (msbFirst_ne_nil (by omega)) ?_
      rw [msbFirst_length, cx]; exact h3 hd
    exact b3.bind fun _ y _ => searchAndWriteBw_bus rc y
  · exact .refl

theorem setConfig_noFatal {rc : RadioConfig} {s : State} (h : s.xferBusy = false) : NoFatal (setConfig rc s) := by
  refine (setMode_noFatal h _).bind fun _ t hr => ?_
  have ht : t.xferBusy = false := idle_after (setMode_bus _ s) h hr
  refine (regWrite_noFatal ht _ _).bind fun _ u hu => ?_
  have hu' : u.xferBusy = false := regWrite_ok_idle hu
  refine (regWrite_noFatal hu' _ _).bind fun _ w hw => ?_
  have hw' : w.xferBusy = false := regWrite_ok_idle hw
  have nb : NoFatal (writeBitRate rc w) := by
    unfold writeBitRate
    split
    · exact regWrite_noFatal hw' _ _
    · exact .ok _ _
  refine nb.bind fun _ x hx => ?_
  have hx' : x.xferBusy = false := by
    unfold writeBitRate at hx
    split at hx
    · exact regWrite_ok_idle hx
    · cases hx; exact hw'
  unfold writeDeviation
  split
  · refine (regWrite_noFatal hx' _ _).bind fun _ y hy => ?_
    have hy' : y.xferBusy = false := regWrite_ok_idle hy
    exact searchAndWriteBw_noFatal hy' rc
  · exact .ok _ _

theorem FramingConfig.wf_sync {fc : FramingConfig} {w : List Byte} (h : fc.wf = true) (hw : fc.syncWord = some w) :
    w ≠ [] := by
  simp only [FramingConfig.wf, hw, Bool.and_eq_true, decide_eq_true_eq] at h
  intro hn
  rw [hn] at h
  simp at h

theorem setFraming_bus {fc : FramingConfig} {s : State} (hw : fc.wf = true) (h : setFramingRefusal s.cfg fc = none) :
    Bus s (setFraming fc s).state := by
  simp only [setFramingRefusal, firstRefusal_cons_none, check_eq_none, firstRefusal_nil, and_true] at h
  refine (regWrite_one_bus _ _ s).bind fun _ t ht => ?_
  have ct : t.cfg = s.cfg := by have := (regWrite_one_bus s.cfg.regs.packetconfig1 fc.packetModeByte s).cfg; rwa [ht] at this
  refine (regWrite_one_bus _ _ t).bind fun _ u hu => ?_
  have cu : u.cfg = s.cfg := by have := (regWrite_one_bus t.cfg.regs.payloadlength fc.fixedPayloadLength t).cfg; rw [hu] at this; exact this.trans ct
  have b1 : Bus u (writeReg16 u.cfg.regs.preamble fc.preambleLength.toNat u).state := by
    refine regWrite_bus (msbFirst_ne_nil (by omega)) ?_
    rw [msbFirst_length, cu]; exact h.1
  refine b1.bind fun _ w hw' => ?_
  have cw : w.cfg = s.cfg := by have := b1.cfg; rw [hw'] at this; exact this.trans cu
  unfold writeSync
  split
  · next bytes hs =>
    refine (regWrite_one_bus _ _ w).bind fun _ x hx => ?_
    have cx : x.cfg = s.cfg := by have := (regWrite_one_bus w.cfg.regs.syncconfig (syncOnValue w.cfg bytes.length) w).cfg; rw [hx] at this; exact this.trans cw
    refine regWrite_bus (FramingConfig.wf_sync hw hs) ?_
    rw [cx]
    simpa [hs] using h.2
  · exact regWrite_one_bus _ _ w

theorem setFraming_noFatal {fc : FramingConfig} {s : State} (h : s.xferBusy = false) : NoFatal (setFraming fc s) := by
  refine (regWrite_noFatal h _ _).bind fun _ t ht => ?_
  refine (regWrite_noFatal (regWrite_ok_idle ht) _ _).bind fun _ u hu => ?_
  refine (regWrite_noFatal (regWrite_ok_idle hu) _ _).bind fun _ w hw => ?_
  have hw' : w.xferBusy = false := regWrite_ok_idle hw
  unfold writeSync
  split
  · exact (regWrite_noFatal hw' _ _).bind fun _ x hx => regWrite_noFatal (regWrite_ok_idle hx) _ _
  · exact regWrite_noFatal hw' _ _

/-! ## TRANSMIT (R113 to R115) -/

theorem txTimeout_bus (s : State) : Bus s (txTimeout s).state := by
  have hb := setMode_bus .standby s
  unfold txTimeout
  split
  · split <;> next hr => rw [hr] at hb; exact hb
  · exact .refl

theorem txTimeout_err {s t : State} {e : CmdError} (h : s.xferBusy = false) (k : txTimeout s = .err e t) :
    e = .transmitTimeout := by
  unfold txTimeout at k
  split at k
  · split at k
    · cases k; rfl
    · cases k; rfl
    · next hr hne =>
      exact absurd (setMode_err h hne).1 (hr _)
  · cases k; rfl

theorem pollPacketSent_bus (s : State) : Bus s (pollPacketSent s).state := by
  refine (poll_bus _ _ _ _ _ _ s).bind fun b t _ => ?_
  cases b
  · exact txTimeout_bus t
  · exact .refl

theorem pollPacketSent_noFatal {s : State} (h : s.xferBusy = false) : NoFatal (pollPacketSent s) := by
  intro e t k
  rcases Res.bind_eq_err k with k | ⟨b, u, k, k'⟩
  · obtain ⟨b, u, hb⟩ := poll_ok (reg := s.cfg.regs.irqflags2) (flag := packetSent s.cfg) (limit := tTxTimeout)
      (period := s.cfg.tTxPoll.us) (t0 := s.now) (n := pollReads tTxTimeout s.cfg.tTxPoll.us) h
    rw [hb] at k
    cases k
  · cases b with
    | true => cases k'
    | false =>
      have hu : u.xferBusy = false := idle_after (poll_bus _ _ _ _ _ _ s) h k
      rw [txTimeout_err hu k']
      rfl

theorem pushPreamble_bus (pre : Option (List Byte)) (s : State) : Bus s (pushPreamble pre s).state := by
  unfold pushPreamble
  split
  · exact .refl
  · exact regWrite_bus (by simp) (by simp [burstFits])

theorem pushPreamble_noFatal {s : State} (h : s.xferBusy = false) (pre : Option (List Byte)) :
    NoFatal (pushPreamble pre s) := by
  unfold pushPreamble
  split
  · exact .ok _ _
  · exact regWrite_noFatal h _ _

theorem transmit_bus {pre : Option (List Byte)} {payload : List Byte} {s : State} (hp : payload ≠ []) :
    Bus s (transmit pre payload s).state := by
  refine (setMode_bus _ s).bind fun _ t _ => ?_
  refine (pushPreamble_bus pre t).bind fun _ u _ => ?_
  refine (regWrite_bus hp (by simp [burstFits])).bind fun _ w _ => ?_
  refine (setMode_bus _ w).bind fun _ x _ => ?_
  exact (pollPacketSent_bus x).bind fun _ y _ => setMode_bus _ y

theorem transmit_noFatal {pre : Option (List Byte)} {payload : List Byte} {s : State} (h : s.xferBusy = false) :
    NoFatal (transmit pre payload s) := by
  refine (setMode_noFatal h _).bind fun _ t ht => ?_
  have ht' := idle_after (setMode_bus _ s) h ht
  refine (pushPreamble_noFatal ht' pre).bind fun _ u hu => ?_
  have hu' := idle_after (pushPreamble_bus pre t) ht' hu
  refine (regWrite_noFatal hu' _ _).bind fun _ w hw => ?_
  have hw' := regWrite_ok_idle hw
  refine (setMode_noFatal hw' _).bind fun _ x hx => ?_
  have hx' := idle_after (setMode_bus _ w) hw' hx
  refine (pollPacketSent_noFatal hx').bind fun _ y hy => ?_
  exact setMode_noFatal (idle_after (pollPacketSent_bus x) hx' hy) _

theorem transmitRefusal_none {c : Config} {pre : Option (List Byte)} {payload : List Byte}
    (h : transmitRefusal c pre payload = none) : payload ≠ [] := by
  simp only [transmitRefusal, firstRefusal_cons_none, check_eq_none, decide_eq_true_eq] at h
  exact h.1

/-! ## The sends (R120, R131) -/

theorem sendFraming_bus {s : State} (h : sendFramingRefusal s.cfg = none) : Bus s (sendFraming s).state := by
  unfold sendFramingRefusal at h
  unfold sendFraming
  split
  · exact .refl
  · next f hf =>
    simp only [hf, firstRefusal_cons_none, check_eq_none, firstRefusal_nil, and_true] at h
    exact setFraming_bus h.1 h.2

theorem sendFraming_noFatal {s : State} (h : s.xferBusy = false) : NoFatal (sendFraming s) := by
  unfold sendFraming
  split
  · exact .ok _ _
  · exact setFraming_noFatal h

/-- After a configuration that completed no transfer is in flight: each of its writes has ended. -/
theorem setConfig_ok_idle {rc : RadioConfig} {s t : State} (k : setConfig rc s = .ok () t) : t.xferBusy = false := by
  obtain ⟨_, u, _, k⟩ := Res.bind_eq_ok k
  obtain ⟨_, w, _, k⟩ := Res.bind_eq_ok k
  obtain ⟨_, x, hx, k⟩ := Res.bind_eq_ok k
  have hx' : x.xferBusy = false := regWrite_ok_idle hx
  obtain ⟨_, y, hy, k⟩ := Res.bind_eq_ok k
  have hy' : y.xferBusy = false := by
    unfold writeBitRate at hy
    split at hy
    · exact regWrite_ok_idle hy
    · cases hy; exact hx'
  unfold writeDeviation at k
  split at k
  · obtain ⟨_, z, hz, k⟩ := Res.bind_eq_ok k
    exact idle_after (searchAndWriteBw_bus rc z) (regWrite_ok_idle hz) k
  · cases k; exact hy'

theorem sendFraming_ok_idle {s t : State} (h : s.xferBusy = false) (k : sendFraming s = .ok () t) : t.xferBusy = false := by
  unfold sendFraming at k
  split at k
  · cases k; exact h
  · obtain ⟨_, u, _, k⟩ := Res.bind_eq_ok k
    obtain ⟨_, w, _, k⟩ := Res.bind_eq_ok k
    obtain ⟨_, x, _, k⟩ := Res.bind_eq_ok k
    unfold writeSync at k
    split at k
    · obtain ⟨_, y, _, k⟩ := Res.bind_eq_ok k
      exact regWrite_ok_idle k
    · exact regWrite_ok_idle k

theorem transmitTimes_bus {pre : Option (List Byte)} {payload : List Byte} (hp : payload ≠ []) (n : Nat) (s : State) :
    Bus s (transmitTimes pre payload n s).state := by
  induction n generalizing s with
  | zero => exact .refl
  | succ n ih => exact (transmit_bus hp).bind fun _ t _ => ih t

theorem transmitTimes_noFatal {pre : Option (List Byte)} {payload : List Byte} (hp : payload ≠ []) (n : Nat) {s : State}
    (h : s.xferBusy = false) : NoFatal (transmitTimes pre payload n s) := by
  induction n generalizing s with
  | zero => exact .ok _ _
  | succ n ih =>
    exact (transmit_noFatal h).bind fun _ t ht => ih (idle_after (transmit_bus hp) h ht)

theorem lsPayload_ne_nil (code : BitVec 32) (st : Option LsState) : lsPayload code st ≠ [] := by simp [lsPayload]

theorem lsTriple_ne_nil (c : Config) (code : BitVec 32) (st : Option LsState) : lsTriple c code st ≠ [] := by
  simp [lsTriple, lsFrame, lsPayload]

theorem evPayload_ne_nil (code : BitVec 32) : evPayload code ≠ [] := by simp [evPayload]

theorem lsRepeats_bus (code : BitVec 32) (st : Option LsState) (s : State) : Bus s (lsRepeats code st s).state := by
  unfold lsRepeats
  split
  · exact transmitTimes_bus (lsPayload_ne_nil _ _) _ s
  · exact transmit_bus (lsTriple_ne_nil _ _ _)

theorem lsRepeats_noFatal {s : State} (h : s.xferBusy = false) (code : BitVec 32) (st : Option LsState) :
    NoFatal (lsRepeats code st s) := by
  unfold lsRepeats
  split
  · exact transmitTimes_noFatal (lsPayload_ne_nil _ _) _ h
  · exact transmit_noFatal h

/-! ## INIT (R93 to R95) -/

theorem identify_bus (n : Nat) (s : State) : Bus s (identify n s).state := by
  induction n generalizing s with
  | zero =>
    refine (regRead_bus _ s).bind fun v t _ => ?_
    split <;> exact .refl
  | succ n ih =>
    refine (regRead_bus _ s).bind fun v t _ => ?_
    split
    · exact .refl
    · exact (Bus.wait _ .refl).trans (ih _)

/-- INIT's identification raises nothing but `HardwareInitError` (R94). -/
theorem identify_err {n : Nat} {s t : State} {e : CmdError} (h : s.xferBusy = false) (k : identify n s = .err e t) :
    ∃ v, e = .hardwareInit v := by
  induction n generalizing s with
  | zero =>
    unfold identify at k
    rw [regRead_idle h] at k
    simp only [Res.bind_ok] at k
    split at k
    · cases k
    · cases k; exact ⟨_, rfl⟩
  | succ n ih =>
    unfold identify at k
    rw [regRead_idle h] at k
    simp only [Res.bind_ok] at k
    split at k
    · cases k
    · exact ih (by simp) k

/-! ## How a command ends -/

/-- What the rule of a command has done between its start and its end, whatever the radio answered: nothing for the encoders,
one update of its own variables for a decoder, a bus sequence for every other command, after the reset pulse for INIT. -/
def Ran (i : Instr) (s t : State) : Prop :=
  match i with
  | .init => Bus (clearOnInit (resetPulse s)) t
  | .evEncode _ => t = s
  | .lsEncode _ _ => t = s
  | .evDecode b u =>
    t = { s with evAcc := (evDecodeStep s.cfg.evDecodeWidth s.evAcc s.evLast b u).2, evLast := some u }
  | .lsDecode b u =>
    t = { s with lsAcc := (lsDecodeStep s.cfg.lsDecodeTimeout s.lsAcc s.lsLast b u).2, lsLast := some u }
  | .regRead _ => Bus s t
  | .regWrite _ _ => Bus s t
  | .setMode _ => Bus s t
  | .setConfig _ => Bus s t
  | .setFraming _ => Bus s t
  | .setHighPower => Bus s t
  | .transmit _ _ => Bus s t
  | .available => Bus s t
  | .readByte => Bus s t
  | .evSend _ => Bus s t
  | .lsSend _ _ => Bus s t

/-- Which errors a command can end with when no transfer is in flight: `HardwareInitError` for INIT, errors that are not fatal
for every other command (R136, R92). -/
def MayRaise (i : Instr) (e : CmdError) : Prop :=
  match i with
  | .init => ∃ v, e = .hardwareInit v
  | _ => e.isFatal = false

/-- The three ways a command ends: refused, returned, or on an error. -/
inductive Ended (i : Instr) (s : State) : State → Prop
  | refused (r : Reason) : Ended i s (refuse r s)
  | returned (r : CmdResult) (u : State) (adm : s.phase = .ready ∨ s.phase = .uninit ∧ admittedUninit i.name = true)
      (ran : Ran i (startCommand s) u) : Ended i s (endOnReturn (phaseAfter i.name s.phase) r u)
  | error (e : CmdError) (u : State) (adm : s.phase = .ready ∨ s.phase = .uninit ∧ admittedUninit i.name = true)
      (ran : Ran i (startCommand s) u) (may : s.xferBusy = false → MayRaise i e) : Ended i s (endOnError s.phase e u)

/-- From what a command's rule does to how the command ends. -/
theorem Ended.of_body {i : Instr} {ch : Option Reason} {body : State → Res CmdResult} {s t : State}
    (h : command i ch body s = .next t)
    (hran : i.wf = true → ch = none → Ran i (startCommand s) (body (startCommand s)).state)
    (hmay : s.xferBusy = false → ∀ e u, body (startCommand s) = .err e u → MayRaise i e) : Ended i s t := by
  cases ha : admission i ch s with
  | some r =>
    rw [command_refused ha] at h
    cases h
    exact .refused r
  | none =>
    rw [command_admitted ha] at h
    obtain ⟨adm, hwf, hch⟩ := admission_eq_none.1 ha
    have hr := hran hwf hch
    cases hb : body (startCommand s) with
    | ok r u =>
      rw [hb] at h hr
      cases h
      exact .returned r u adm hr
    | err e u =>
      rw [hb] at h hr
      cases h
      exact .error e u adm hr fun hs => hmay hs e u hb

theorem bus_done {α : Type} {s : State} {r : Res α} {f : α → CmdResult} (h : Bus s r.state) :
    Bus s (r.bind fun a s => Res.ok (f a) s).state := h.bind fun _ _ _ => .refl

theorem noFatal_done {α : Type} {r : Res α} {f : α → State → CmdResult} (h : NoFatal r) :
    NoFatal (r.bind fun a s => Res.ok (f a s) s) := h.bind fun _ _ _ => .ok _ _

/-- Every command ends in one of the three ways: refused without effect, returned, or on an error, and on the way its rule has
done nothing but what `Ran` allows. -/
theorem exec_cases {i : Instr} {s t : State} (h : exec i s = .next t) : Ended i s t := by
  cases i with
  | regRead a =>
    exact .of_body h (fun _ _ => bus_done (regRead_bus _ _)) fun hs e u k =>
      noFatal_done (f := fun v _ => .byte v) (regRead_noFatal (by simpa using hs) _) e u k
  | regWrite a data =>
    refine .of_body h (fun _ hch => bus_done (f := fun _ => .done) (regWrite_bus ?_ ?_)) fun hs e u k =>
      noFatal_done (f := fun _ _ => .done) (regWrite_noFatal (by simpa using hs) _ _) e u k
    · simp only [regWriteRefusal, firstRefusal_cons_none, check_eq_none, decide_eq_true_eq] at hch
      exact hch.2.1
    · simp only [regWriteRefusal, firstRefusal_cons_none, check_eq_none, decide_eq_true_eq] at hch
      exact hch.2.2.1
  | init =>
    refine .of_body h (fun _ _ => bus_done (f := fun _ => .done) (identify_bus _ _)) fun hs e u k => ?_
    rcases Res.bind_eq_err k with k | ⟨_, _, _, k⟩
    · exact identify_err (by simpa [resetPulse] using hs) k
    · cases k
  | setMode m =>
    exact .of_body h (fun _ _ => bus_done (f := fun _ => .done) (setMode_bus _ _)) fun hs e u k =>
      noFatal_done (f := fun _ _ => .done) (setMode_noFatal (by simpa using hs) _) e u k
  | setConfig rc =>
    exact .of_body h (fun _ hch => bus_done (f := fun _ => .done) (setConfig_bus hch)) fun hs e u k =>
      noFatal_done (f := fun _ _ => .done) (setConfig_noFatal (by simpa using hs)) e u k
  | setFraming fc =>
    exact .of_body h (fun hwf hch => bus_done (f := fun _ => .done) (setFraming_bus hwf hch)) fun hs e u k =>
      noFatal_done (f := fun _ _ => .done) (setFraming_noFatal (by simpa using hs)) e u k
  | setHighPower =>
    exact .of_body h (fun _ _ => bus_done (f := fun _ => .done) (setHighPower_bus _)) fun hs e u k =>
      noFatal_done (f := fun _ _ => .done) (setHighPower_noFatal (by simpa using hs)) e u k
  | transmit pre payload =>
    exact .of_body h (fun _ hch => bus_done (f := fun _ => .done) (transmit_bus (transmitRefusal_none hch)))
      fun hs e u k => noFatal_done (f := fun _ _ => .done) (transmit_noFatal (by simpa using hs)) e u k
  | available =>
    refine .of_body h (fun _ _ => (regRead_bus _ _).bind fun _ _ _ => .refl) fun hs e u k =>
      noFatal_done (f := fun v s => .flag (availFlag s.cfg v)) (regRead_noFatal (by simpa using hs) _) e u k
  | readByte =>
    exact .of_body h (fun _ _ => bus_done (regRead_bus _ _)) fun hs e u k =>
      noFatal_done (f := fun v _ => .byte v) (regRead_noFatal (by simpa using hs) _) e u k
  | evEncode code =>
    refine .of_body h (fun _ _ => rfl) fun _ e u k => ?_
    cases k
  | evSend code =>
    refine .of_body h (fun _ hch => ?_) fun hs e u k => ?_
    · simp only [evSendRefusal, firstRefusal_cons_none, firstRefusal_nil, and_true] at hch
      have b1 := setConfig_bus (s := startCommand s) hch.1
      refine b1.bind fun _ t ht => ?_
      have ct : t.cfg = s.cfg := by have := b1.cfg; rwa [ht] at this
      refine (sendFraming_bus (by rw [ct]; exact hch.2.1)).bind fun _ w _ => ?_
      exact bus_done (f := fun _ => .done) (transmit_bus (evPayload_ne_nil _))
    · have hs' : (startCommand s).xferBusy = false := by simpa using hs
      revert k
      refine NoFatal.bind (setConfig_noFatal hs') (fun _ t ht => ?_) e u
      have ht' : t.xferBusy = false := setConfig_ok_idle ht
      refine (sendFraming_noFatal ht').bind fun _ w hw => ?_
      exact noFatal_done (f := fun _ _ => .done) (transmit_noFatal (sendFraming_ok_idle ht' hw))
  | evDecode b u =>
    refine .of_body h (fun _ _ => rfl) fun _ e u k => ?_
    cases k
  | lsEncode code st =>
    refine .of_body h (fun _ _ => rfl) fun _ e u k => ?_
    cases k
  | lsSend code st =>
    refine .of_body h (fun _ hch => ?_) fun hs e u k => ?_
    · simp only [lsSendRefusal, firstRefusal_cons_none, firstRefusal_nil, and_true] at hch
      have b1 := setConfig_bus (s := startCommand s) hch.1
      refine b1.bind fun _ t ht => ?_
      have ct : t.cfg = s.cfg := by have := b1.cfg; rwa [ht] at this
      refine (sendFraming_bus (by rw [ct]; exact hch.2.1)).bind fun _ w _ => ?_
      exact bus_done (f := fun _ => .done) (lsRepeats_bus _ _ _)
    · have hs' : (startCommand s).xferBusy = false := by simpa using hs
      revert k
      refine NoFatal.bind (setConfig_noFatal hs') (fun _ t ht => ?_) e u
      have ht' : t.xferBusy = false := setConfig_ok_idle ht
      refine (sendFraming_noFatal ht').bind fun _ w hw => ?_
      exact noFatal_done (f := fun _ _ => .done) (lsRepeats_noFatal (sendFraming_ok_idle ht' hw) _ _)
  | lsDecode b u =>
    refine .of_body h (fun _ _ => rfl) fun _ e u k => ?_
    cases k

end Sys2Proof.Machine
end

