-- ==== Sys2Proof/Laws/PerInstr.lean ====
section
/-! SUPPORT. The round trip, command by command: the decoder reads back the word the encoder writes for a well-formed command
(R81, R82, R83). -/

namespace Sys2Proof.Laws.RoundTrip

/-- A well-formed command is read back from its word. -/
def Statement (i : Instr) : Prop := i.wf = true → decode (encode i) = .ok i

/-! ## Fields -/

/-- A byte string written most significant byte first is read back modulo its size. -/
theorem foldl_beBytes (k v acc : Nat) :
    (beBytes k v).foldl (fun acc b => acc * 256 + b.toNat) acc = acc * 256 ^ k + v % 256 ^ k := by
  induction k generalizing acc with
  | zero => simp [beBytes, Nat.mod_one]
  | succ k ih =>
    simp only [beBytes, List.foldl_cons, ih, BitVec.toNat_ofNat]
    rw [Nat.pow_succ 256 k, Nat.mod_mul, Nat.add_mul, Nat.mul_assoc, Nat.mul_comm 256 (256 ^ k)]
    have : (2 : Nat) ^ 8 = 256 := rfl
    rw [this, Nat.mul_comm (v / 256 ^ k % 256)]
    omega

theorem beNat_beBytes (k v : Nat) (h : v < 256 ^ k) : beNat (beBytes k v) = v := by
  rw [beNat, foldl_beBytes, Nat.mod_eq_of_lt h]
  simp

theorem parseCode_beBytes (code : BitVec 32) : parseCode (beBytes 4 code.toNat) = some code := by
  have h := beNat_beBytes 4 code.toNat code.isLt
  simp only [beBytes] at h ⊢
  simp only [parseCode, h, BitVec.ofNat_toNat, BitVec.setWidth_eq]

theorem parseByteTime_beBytes (b : Byte) (t : Nat) (h : t < 2 ^ 64) : parseByteTime (b :: beBytes 8 t) = some (b, t) := by
  have h := beNat_beBytes 8 t h
  simp only [beBytes] at h ⊢
  simp only [parseByteTime, h]

theorem parseLs_encode (code : BitVec 32) (st : Option LsState) :
    parseLs (byteOfLsState st :: beBytes 4 code.toNat) = some (code, st) := by
  simp only [parseLs, parseCode_beBytes]
  rcases st with _ | _ | _ <;> rfl

/-- The length byte of a byte string of at most 255 bytes. -/
theorem toNat_length (l : List Byte) (h : l.length ≤ 255) : (BitVec.ofNat 8 l.length).toNat = l.length := by
  rw [BitVec.toNat_ofNat]
  exact Nat.mod_eq_of_lt (by omega)

theorem parseWrite_encode (a : Byte) (data : List Byte) (h : data.length ≤ 255) :
    parseWrite (a :: BitVec.ofNat 8 data.length :: data) = some (.regWrite a data) := by
  simp [parseWrite, Nat.mod_eq_of_lt (show data.length < 256 by omega)]

theorem parseConfig_encode (c : RadioConfig) (h : c.wf = true) :
    parseConfig (beBytes 4 c.carrierFreqHz ++ beBytes 4 c.freqDeviationHz ++ beBytes 4 c.bitRateBps ++ [c.modulationFlags]) =
      some c := by
  simp only [RadioConfig.wf, Bool.and_eq_true, decide_eq_true_eq] at h
  have h1 := beNat_beBytes 4 c.carrierFreqHz h.1.1
  have h2 := beNat_beBytes 4 c.freqDeviationHz h.1.2
  have h3 := beNat_beBytes 4 c.bitRateBps h.2
  simp only [beBytes] at h1 h2 h3
  simp only [beBytes, List.cons_append, List.nil_append, parseConfig, h1, h2, h3]

theorem parseFraming_encode (c : FramingConfig) (h : c.wf = true) :
    parseFraming (c.packetModeByte :: beBytes 2 c.preambleLength.toNat ++ c.fixedPayloadLength :: encodeOptional c.syncWord) =
      some c := by
  have hp := beNat_beBytes 2 c.preambleLength.toNat c.preambleLength.isLt
  simp only [beBytes] at hp
  obtain ⟨pm, pl, fx, sw⟩ := c
  cases sw with
  | none =>
    simp only [beBytes, encodeOptional, List.cons_append, List.nil_append, parseFraming, hp]
    simp [optionalBytes]
  | some w =>
    simp only [FramingConfig.wf, Bool.and_eq_true, decide_eq_true_eq] at h
    have hl := toNat_length w (by omega)
    simp only [beBytes, encodeOptional, List.cons_append, List.nil_append, parseFraming, hp, hl]
    simp [optionalBytes, h.2]

theorem parseTransmit_encode (pre : Option (List Byte)) (payload : List Byte) (h1 : (pre.getD []).length ≤ 255)
    (h2 : payload.length ≤ 255) :
    parseTransmit (encodeOptional pre ++ BitVec.ofNat 8 payload.length :: payload) = some (.transmit pre payload) := by
  have hq := toNat_length payload h2
  cases pre with
  | none =>
    simp only [encodeOptional, List.cons_append, List.nil_append, parseTransmit]
    simp [optionalBytes, Nat.mod_eq_of_lt (show payload.length < 256 by omega)]
  | some w =>
    simp only [Option.getD_some] at h1
    have hl := toNat_length w h1
    simp only [encodeOptional, List.cons_append, parseTransmit, hl, List.drop_left, List.take_left, hq, if_true]
    simp [optionalBytes]

/-! ## Commands -/

theorem regRead (a : Byte) : Statement (.regRead a) := fun _ => rfl

theorem regWrite (a : Byte) (data : List Byte) : Statement (.regWrite a data) := by
  intro h
  simp only [Instr.wf, Bool.and_eq_true, decide_eq_true_eq] at h
  show (match parseWrite (a :: BitVec.ofNat 8 data.length :: data) with
    | some i => Decoded.ok i
    | none => .badOperand .regWrite) = _
  rw [parseWrite_encode a data h.2]

theorem init : Statement .init := fun _ => rfl

theorem setMode (m : Mode) : Statement (.setMode m) := by
  intro _
  cases m <;> rfl

theorem setConfig (c : RadioConfig) : Statement (.setConfig c) := by
  intro h
  show (match (parseConfig (encodeOperands (.setConfig c))).map Instr.setConfig with
    | some i => Decoded.ok i
    | none => .badOperand .setConfig) = _
  rw [encodeOperands, parseConfig_encode c h]
  rfl

theorem setFraming (c : FramingConfig) : Statement (.setFraming c) := by
  intro h
  show (match (parseFraming (encodeOperands (.setFraming c))).map Instr.setFraming with
    | some i => Decoded.ok i
    | none => .badOperand .setFraming) = _
  rw [encodeOperands, parseFraming_encode c h]
  rfl

theorem setHighPower : Statement .setHighPower := fun _ => rfl

theorem transmit (pre : Option (List Byte)) (payload : List Byte) : Statement (.transmit pre payload) := by
  intro h
  simp only [Instr.wf, Bool.and_eq_true, decide_eq_true_eq] at h
  show (match parseTransmit (encodeOperands (.transmit pre payload)) with
    | some i => Decoded.ok i
    | none => .badOperand .transmit) = _
  rw [encodeOperands, parseTransmit_encode pre payload h.1 h.2]

theorem available : Statement .available := fun _ => rfl

theorem readByte : Statement .readByte := fun _ => rfl

theorem evEncode (code : BitVec 32) : Statement (.evEncode code) := by
  intro _
  show (match (parseCode (beBytes 4 code.toNat)).map Instr.evEncode with
    | some i => Decoded.ok i
    | none => .badOperand .evEncode) = _
  rw [parseCode_beBytes]
  rfl

theorem evSend (code : BitVec 32) : Statement (.evSend code) := by
  intro _
  show (match (parseCode (beBytes 4 code.toNat)).map Instr.evSend with
    | some i => Decoded.ok i
    | none => .badOperand .evSend) = _
  rw [parseCode_beBytes]
  rfl

theorem evDecode (b : Byte) (t : Nat) : Statement (.evDecode b t) := by
  intro h
  simp only [Instr.wf, decide_eq_true_eq] at h
  show (match (parseByteTime (b :: beBytes 8 t)).map (fun p => Instr.evDecode p.1 p.2) with
    | some i => Decoded.ok i
    | none => .badOperand .evDecode) = _
  rw [parseByteTime_beBytes b t h]
  rfl

theorem lsEncode (code : BitVec 32) (st : Option LsState) : Statement (.lsEncode code st) := by
  intro _
  show (match (parseLs (byteOfLsState st :: beBytes 4 code.toNat)).map (fun p => Instr.lsEncode p.1 p.2) with
    | some i => Decoded.ok i
    | none => .badOperand .lsEncode) = _
  rw [parseLs_encode]
  rfl

theorem lsSend (code : BitVec 32) (st : Option LsState) : Statement (.lsSend code st) := by
  intro _
  show (match (parseLs (byteOfLsState st :: beBytes 4 code.toNat)).map (fun p => Instr.lsSend p.1 p.2) with
    | some i => Decoded.ok i
    | none => .badOperand .lsSend) = _
  rw [parseLs_encode]
  rfl

theorem lsDecode (b : Byte) (t : Nat) : Statement (.lsDecode b t) := by
  intro h
  simp only [Instr.wf, decide_eq_true_eq] at h
  show (match (parseByteTime (b :: beBytes 8 t)).map (fun p => Instr.lsDecode p.1 p.2) with
    | some i => Decoded.ok i
    | none => .badOperand .lsDecode) = _
  rw [parseByteTime_beBytes b t h]
  rfl

end Sys2Proof.Laws.RoundTrip
end

