-- ==== Sys2Proof/Tests/Slice0.lean ====
section
/-! SUPPORT. Tests, each a named theorem about one step or one word, with expected values from the spec's own vectors
(95_test_vectors.md unless another place is named), and for each statement with hypotheses a witness that meets them. -/

namespace Sys2Proof.Tests

open Sys2Proof Sys2Proof.Machine

/-! ## Helpers -/

/-- Every parameter at its default; the parameters without a default at values chosen for these tests. -/
def cfg : Config :=
  { defaultConfig with
    tIdRetry := 50
    tTxPoll := ⟨9⟩
    evDecodeWidth := .w24
    txTimeoutRestoresStandby := false
    spiHz := 10000000
    brightMarker := ⟨24, true⟩ }

/-- A READY block and a radio that gives these answers. -/
def ready (answers : List Byte) : State :=
  { State.reset with phase := .ready, cfg := cfg, radio := { Radio.initial with answers := answers } }

/-- The same, with the durations of the next transfers and waits laid down. -/
def timed (answers : List Byte) (delays : List Nat) : State := { ready answers with delays := delays }

/-- A READY block and the reference radio with these registers and this FIFO. -/
def reference (regs : Memory) (fifo : List Byte) : State :=
  { ready [] with radio := { kind := .reference, answers := [], regs := regs, fifo := fifo, resets := 0 } }

/-- The state after a command. -/
def after (i : Instr) (s : State) : State :=
  match exec i s with
  | .next t => t
  | .fault _ => s
  | .refused _ => s

/-- The state after a step. -/
def stepped (s : State) : State :=
  match step s with
  | .next t => t
  | .fault _ => s
  | .refused _ => s

/-- The twelve data bytes of the EV1527 frame of 0x12345. -/
def evBytes : List Byte := [0x88, 0x88, 0x88, 0x8E, 0x88, 0xE8, 0x88, 0xEE, 0x8E, 0x88, 0x8E, 0x8E]

/-- The thirteen data bytes of the LightStrip frame of 0x12345, ON. -/
def lsBytes : List Byte := [0x44, 0x74, 0x44, 0x44, 0x74, 0x47, 0x44, 0x47, 0x74, 0x74, 0x44, 0x74, 0x70]

/-- EV_CFG and LS_CFG at their default rates, and a configuration no bandwidth serves (2.6). -/
def evCfg : RadioConfig := ⟨433920000, 50000, 2800, 0x08⟩
def badCfg : RadioConfig := ⟨433920000, 50000, 125000, 0x08⟩

/-- A framing with a sync word (2.7). -/
def framing : FramingConfig := ⟨0x10, 3, 64, some [0x2D]⟩

/-- The answers of one TRANSMIT from STANDBY (2.8). -/
def quick : TxAnswers := ⟨0x04, 0x00, 0x04, 0x80, 0x08, 0x0C, 0x80⟩

/-! ## WellFormed: an ill-formed term for each check -/

theorem test_wf_refuses_empty_write : (Instr.regWrite 0x10 []).wf = false := by decide
theorem test_wf_refuses_long_write : (Instr.regWrite 0x10 (List.replicate 256 0)).wf = false := by
  simp only [Instr.wf, List.length_replicate]; decide
theorem test_wf_refuses_carrier : (Instr.setConfig ⟨2 ^ 32, 0, 0, 0⟩).wf = false := by decide
theorem test_wf_refuses_deviation : (Instr.setConfig ⟨0, 2 ^ 32, 0, 0⟩).wf = false := by decide
theorem test_wf_refuses_bitrate : (Instr.setConfig ⟨0, 0, 2 ^ 32, 0⟩).wf = false := by decide
theorem test_wf_refuses_empty_sync : (Instr.setFraming ⟨0, 0, 0, some []⟩).wf = false := by decide
theorem test_wf_refuses_long_sync : (Instr.setFraming ⟨0, 0, 0, some [1, 2, 3, 4, 5, 6, 7, 8, 9]⟩).wf = false := by decide
theorem test_wf_refuses_long_preamble : (Instr.transmit (some (List.replicate 256 0)) [0]).wf = false := by
  simp only [Instr.wf, Option.getD_some, List.length_replicate]; decide
theorem test_wf_refuses_long_payload : (Instr.transmit none (List.replicate 256 0)).wf = false := by
  simp only [Instr.wf, List.length_replicate]; decide
theorem test_wf_refuses_ev_time : (Instr.evDecode 0x88 (2 ^ 64)).wf = false := by decide
theorem test_wf_refuses_ls_time : (Instr.lsDecode 0x44 (2 ^ 64)).wf = false := by decide
theorem test_ill_formed_command_refused :
    after (.regWrite 0x10 []) (ready []) = refuse .badOperand (ready []) := by decide

/-! ## Words (2.1 to 2.16) -/

theorem test_decode_reg_write : decode [0x02, 0x7F, 0x01, 0x01] = .ok (.regWrite 0x7F [0x01]) := by decide
theorem test_decode_set_mode : decode [0x11, 0x04] = .ok (.setMode .rx) := by decide
theorem test_decode_set_config :
    decode [0x12, 0x19, 0xDD, 0x18, 0x00, 0x00, 0x00, 0xC3, 0x50, 0x00, 0x01, 0xE8, 0x48, 0x08] =
      .ok (.setConfig badCfg) := by decide
theorem test_decode_set_framing :
    decode [0x13, 0x00, 0x01, 0x02, 0x0C, 0x01, 0x08, 0x01, 0x02, 0x03, 0x04, 0x05, 0x06, 0x07, 0x08] =
      .ok (.setFraming ⟨0x00, 0x0102, 12, some [1, 2, 3, 4, 5, 6, 7, 8]⟩) := by decide
theorem test_decode_transmit : decode [0x15, 0x01, 0x00, 0x01, 0xAA] = .ok (.transmit (some []) [0xAA]) := by decide
theorem test_decode_no_operands :
    [decode [0x10], decode [0x14], decode [0x16], decode [0x17]] = [.ok .init, .ok .setHighPower, .ok .available, .ok .readByte] := by
  decide
theorem test_decode_ev_encode : decode [0x20, 0x00, 0xAB, 0xCD, 0xEF] = .ok (.evEncode 0xABCDEF) := by decide
theorem test_decode_ls_send : decode [0x31, 0x02, 0x00, 0x01, 0x23, 0x45] = .ok (.lsSend 0x12345 (some .off)) := by decide
theorem test_decode_ev_decode :
    decode [0x22, 0x88, 0x00, 0x00, 0x00, 0x00, 0x00, 0x00, 0x03, 0xE8] = .ok (.evDecode 0x88 1000) := by decide
theorem test_decode_bad_opcodes :
    [decode [0x03], decode [0x00], decode [0x18], decode [0x33], decode [0xFF]] = List.replicate 5 .badOpcode := by decide
theorem test_decode_bad_mode : decode [0x11, 0x05] = .badOperand .setMode := by decide
theorem test_decode_bad_state : decode [0x30, 0x03, 0, 0, 0, 0] = .badOperand .lsEncode := by decide
theorem test_decode_bad_sync :
    decode [0x13, 0, 0, 0, 0, 1, 9, 1, 2, 3, 4, 5, 6, 7, 8, 9] = .badOperand .setFraming := by decide
theorem test_table_words :
    [decodeTableWord 16 0x1001, decodeTableWord 16 0x0311, decodeTableWord 8 0x21] =
      [some (.regRead 0x10), some (.setMode .tx), some (.evSend 0)] := by decide
theorem test_fetch_word_runs :
    stepped (State.reset.withFetchWord 40 0x4523010020) = after (.evEncode 0x12345) State.reset := rfl

/-! ## One step of each command -/

theorem test_reg_read : sent (after (.regRead 0x10) (ready [0x24])).trace = [[0x10, 0x00]] ∧
    (after (.regRead 0x10) (ready [0x24])).replies = [.result (.byte 0x24)] := by decide
theorem test_reg_read_pops_fifo : (after (.regRead 0x00) (reference [] [0x5A, 0x77])).replies = [.result (.byte 0x5A)] ∧
    (after (.regRead 0x00) (reference [] [0x5A, 0x77])).radio.fifo = [0x77] := by decide
theorem test_reg_write : sent (after (.regWrite 0x07 [0x6C, 0x7A, 0xE1]) (ready [])).trace = [[0x87, 0x6C, 0x7A, 0xE1]] := by
  decide
theorem test_reg_read_unlisted : (after (.regRead 0x2F) (reference [] [])).replies =
    [.result (.byte (Config.unlistedRegister 0 0x2F))] := rfl
theorem test_tx_write_empties_fifo : (after (.regWrite 0x01 [0x0C]) (reference [] [1, 2])).radio.fifo = [] ∧
    (after (.regWrite 0x01 [0x04]) (reference [] [1, 2])).radio.fifo = [1, 2] := by decide
theorem test_bus_bits : busBits cfg.spiMode [0x81, 0x07] =
    [true, false, false, false, false, false, false, true, false, false, false, false, false, true, true, true] := by decide
theorem test_modflags_ook : dataMode cfg cfg.modflagsOok = 0 ∧ shaping cfg cfg.modflagsOok = 0 ∧
    isOok cfg cfg.modflagsOok = true := by decide
theorem test_reg_write_past_end : after (.regWrite 0x7F [1, 2]) (ready []) = refuse .addrRange (ready []) := by decide
theorem test_init_third_read :
    sent (after .init { timed [0x00, 0x12, 0x24] [] with phase := .uninit }).trace = [[0x10, 0], [0x10, 0], [0x10, 0]] ∧
    (after .init { timed [0x00, 0x12, 0x24] [] with phase := .uninit }).phase = .ready := by decide
theorem test_init_fails : (after .init (ready [0x22, 0x23, 0xFF])).replies = [.error (.hardwareInit 0xFF)] ∧
    (after .init (ready [0x22, 0x23, 0xFF])).phase = .failed := by decide
theorem test_set_mode_keeps_bits : sent (after (.setMode .tx) (ready [0xE7, 0x80])).trace = [[0x01, 0], [0x81, 0xEF], [0x27, 0]] ∧
    (after (.setMode .tx) (ready [0xE7, 0x80])).modeMirror = some .tx := by decide
theorem test_set_mode_timeout :
    (after (.setMode .tx) (timed [0x04, 0x00] [0, 0, 1000000])).replies = [.error (.modeTimeout .tx)] ∧
    (after (.setMode .tx) (timed [0x04, 0x00] [0, 0, 1000000])).modeMirror = none := by decide
theorem test_set_high_power : sent (after .setHighPower (ready [0x00, 0xFF])).trace =
    [[0x11, 0], [0x91, 0x60], [0x13, 0], [0x93, 0xEF]] := by decide
theorem test_set_config : sent (after (.setConfig evCfg) (ready [0x00, 0x80, 0x86])).trace =
    [[0x01, 0], [0x81, 0x04], [0x27, 0], [0x87, 0x6C, 0x7A, 0xE1], [0x82, 0x08], [0x83, 0x2C, 0xA5], [0x85, 0x03, 0x33],
      [0x19, 0], [0x99, 0x82]] := by decide
theorem test_set_config_bandwidth : (after (.setConfig badCfg) (ready [0x04])).replies = [.error (.bandwidthRange 250000)] ∧
    sent (after (.setConfig badCfg) (ready [0x04])).trace =
      [[0x01, 0], [0x87, 0x6C, 0x7A, 0xE1], [0x82, 0x08], [0x83, 0x01, 0x00], [0x85, 0x03, 0x33]] := by decide
theorem test_set_config_full : sent (after (.setConfig evCfg)
    { ready [0x04] with cfg := { cfg with rxbwWrite := .full 2, afcbwAlso := true } }).trace =
    [[0x01, 0], [0x87, 0x6C, 0x7A, 0xE1], [0x82, 0x08], [0x83, 0x2C, 0xA5], [0x85, 0x03, 0x33], [0x99, 0x42], [0x9A, 0x42]] := by
  decide
theorem test_set_framing : sent (after (.setFraming framing) (ready [])).trace =
    [[0xB7, 0x10], [0xB8, 0x40], [0xAC, 0x00, 0x03], [0xAE, 0x80], [0xAF, 0x2D]] := by decide
theorem test_transmit : sent (after (.transmit none [0xAA]) (ready (quick.list cfg))).trace =
    [[0x01, 0], [0x80, 0xAA], [0x01, 0], [0x81, 0x0C], [0x27, 0], [0x28, 0], [0x01, 0], [0x81, 0x04], [0x27, 0]] := by decide
theorem test_transmit_timeout :
    (after (.transmit none [0xAA]) (timed [0x04, 0x04, 0x80, 0x00] [0, 0, 0, 0, 0, 1000000])).replies =
      [.error .transmitTimeout] ∧
    (after (.transmit none [0xAA]) (timed [0x04, 0x04, 0x80, 0x00] [0, 0, 0, 0, 0, 1000000])).modeMirror = some .tx := by
  decide
theorem test_available : (after .available (ready [0x48])).replies = [.result (.flag true)] ∧
    (after .available (ready [0x08])).replies = [.result (.flag false)] := by decide
theorem test_read_byte : sent (after .readByte (ready [0x8E])).trace = [[0x00, 0x00]] ∧
    (after .readByte (ready [0x8E])).replies = [.result (.byte 0x8E)] := by decide
theorem test_ev_encode : (after (.evEncode 0x01012345) (ready [])).replies =
    [.result (.frame [0x80, 0, 0, 0] (evBytes ++ [0x80]))] := by decide
theorem test_ev_send_reference : sent (after (.evSend 0x12345) (reference [] [])).trace =
    [[0x01, 0], [0x87, 0x6C, 0x7A, 0xE1], [0x82, 0x08], [0x83, 0x2C, 0xA5], [0x85, 0x03, 0x33], [0x19, 0], [0x99, 0x82]] ++
    [[0x01, 0], [0x80, 0x80, 0, 0, 0], 0x80 :: (evBytes ++ [0x80]), [0x01, 0], [0x81, 0x0C], [0x27, 0], [0x28, 0], [0x01, 0],
      [0x81, 0x04], [0x27, 0]] ∧ (after (.evSend 0x12345) (reference [] [])).radio.fifo = [] := by decide
theorem test_ev_decode_completes :
    (after (.evDecode 0x8E 11000) { ready [] with evAcc := evBytes.take 11, evLast := some 10000 }).replies =
      [.result (.decoded (some 0x12345))] := by decide
theorem test_ev_decode_gap :
    (after (.evDecode 0xEE 10004000) { ready [] with evAcc := evBytes.take 3, evLast := some 4000 }).evAcc.length = 4 ∧
    (after (.evDecode 0xEE 10004001) { ready [] with evAcc := evBytes.take 3, evLast := some 4000 }).evAcc = [0xEE] := by
  decide
theorem test_ls_encode_on : (after (.lsEncode 0x12345 (some .on)) (ready [])).replies =
    [.result (.frame [0, 0, 0, 0, 0, 0x80, 0] (lsBytes ++ [0x00]))] := by decide
theorem test_ls_encode_masks : (after (.lsEncode 0x3FFFFFF (some .off)) (ready [])).replies =
    [.result (.frame [0, 0, 0, 0, 0, 0x80, 0]
      [0x77, 0x47, 0x47, 0x77, 0x77, 0x77, 0x77, 0x77, 0x77, 0x77, 0x77, 0x77, 0x70, 0x00])] := by decide
theorem test_ls_send_counts : transferCount (after (.lsSend 0xFF (some .on)) (reference [] [])).trace = 37 ∧
    transferCount (after (.lsSend 0xFF (some .on))
      { reference [] [] with cfg := { cfg with lsRepeatStyle := .concat } }).trace = 16 := by decide
theorem test_ls_decode_completes :
    (after (.lsDecode 0x70 12) { ready [] with lsAcc := lsBytes.take 12, lsLast := some 11 }).replies =
      [.result (.decoded (some 0x412345))] := by decide
theorem test_ls_decode_short_bits :
    (after (.lsDecode 0x77 12) { ready [] with lsAcc := 0x70 :: List.replicate 11 0x77, lsLast := some 11 }).replies =
      [.result (.decoded (some 0x1FFFFFF))] := by decide
theorem test_command_text : commandText (.lsDecode 0x70 12) = "LS_DECODE 0x70, 0x000000000000000C" := by decide

/-! ## Witnesses: the hypotheses of each statement, together, at the ends of their ranges -/

/-- The test states are states between commands. -/
theorem ready_inv (answers : List Byte) : Inv (ready answers) := by
  constructor <;> simp [ready, State.reset, Radio.initial, Memory.wf, Memory.wfFrom]

theorem ready_ready (answers : List Byte) : Ready (ready answers) := ⟨rfl, rfl⟩

theorem ready_answers (answers : List Byte) : Answers (ready answers) answers := ⟨rfl, [], (List.append_nil _).symm⟩

theorem cfg_ok : configOk cfg = true := by decide

theorem quick_good : quick.Good cfg := ⟨.inl (by decide), .inr (by decide), by decide, .inr (by decide)⟩

theorem test_witness_DecodeReadsBackEncode :
    (Instr.regWrite 0x7F (List.replicate 255 0)).wf = true ∧ (Instr.setFraming ⟨0, 0, 0, some [1, 2, 3, 4, 5, 6, 7, 8]⟩).wf = true ∧
    (Instr.setConfig ⟨2 ^ 32 - 1, 0, 0, 0⟩).wf = true ∧ (Instr.evDecode 0 (2 ^ 64 - 1)).wf = true :=
  ⟨by simp only [Instr.wf, List.length_replicate]; decide, by decide, by decide, by decide⟩
theorem test_witness_EncodeWritesBackDecode :
    decode [0x13, 0, 0, 0, 0x11, 0, 2, 9, 9] = .ok (.setFraming ⟨0, 0, 0x11, none⟩) ∧
    decode [0x01, 0x7F] = .ok (.regRead 0x7F) ∧ (Instr.regRead 0x7F).name.format ≠ .F ∧
    (Instr.regRead 0x7F).name.format ≠ .T := by decide
theorem test_witness_OpcodeTable :
    (0x18 : Byte) ∉ ([0x01, 0x02, 0x10, 0x11, 0x12, 0x13, 0x14, 0x15, 0x16, 0x17, 0x20, 0x21, 0x22, 0x30, 0x31, 0x32] : List Byte) ∧
    (putWord [0x18] (ready [])).port = .issue [0x18] :: [] := by decide
theorem test_witness_WordChecks : ¬ WordOk .setMode [0x05] ∧ WordOk .setMode [0x04] ∧ ¬ WordOk .init [0x00] ∧
    (ready []).phase = .ready := by simp [WordOk, CmdName.format, ready]
theorem test_witness_WordChecks_codes :
    (∀ k, k < 24 → (0x1000000 : BitVec 32).getLsbD k = (0 : BitVec 32).getLsbD k) ∧
    (∀ k, k < 25 → (0x2000000 : BitVec 32).getLsbD k = (0 : BitVec 32).getLsbD k) := by decide
theorem test_witness_AdmissionOrder :
    ({ ready [] with phase := .busy }).phase = .busy ∧ ({ ready [] with phase := .failed }).phase = .failed ∧
    State.reset.phase = .uninit ∧ (Instr.setMode .sleep).name ∉ [.init, .evEncode, .lsEncode, .evDecode, .lsDecode] ∧
    (Instr.evDecode 0 (2 ^ 64)).name ∈ [.init, .evEncode, .lsEncode, .evDecode, .lsDecode] ∧
    (Instr.evDecode 0 (2 ^ 64)).wf = false ∧ (Instr.regWrite 0 []).wf = false ∧ decode [0x11, 0x05] = .badOperand .setMode ∧
    decode [0x20] = .badOperand .evEncode := by decide
theorem test_witness_StepRunsDecodedCommand :
    (putWord [0x10] State.reset).port = .issue [0x10] :: [] ∧ decode [0x10] = .ok .init ∧ State.reset.port = [] ∧
    decodeTableWord 8 0x10 = some .init := by decide
theorem test_witness_OneOutcomePerCommand :
    (putWord [0x16] (ready [0x40])).port = .issue [0x16] :: [] ∧
    ({ ready [] with port := [.overlap [0x16]] }).port = .overlap [0x16] :: [] ∧
    (∃ t, step (putWord [0x16] (ready [0x40])) = .next t) ∧ ∃ t, step { ready [] with port := [.overlap [0x16]] } = .next t :=
  ⟨rfl, rfl, ⟨_, rfl⟩, ⟨_, rfl⟩⟩
theorem test_witness_RefusalHasNoOtherEffect : ∃ t, runWord [0x01, 0x80] (ready []) = .next t ∧
    t.replies = (ready []).replies ++ [.refusal .addrRange] := ⟨_, rfl, rfl⟩
theorem test_witness_OverlapAndFailedRefuse :
    (stepped { ready [] with port := [.overlap [0x16]] }).refused = some .overlap ∧
    (stepped { ready [] with port := [.issue [0x10]], phase := .failed }).refused = some .failed ∧
    (stepped { ready [] with port := [.powerOn], phase := .failed }).phase = .uninit := by decide
theorem test_witness_PhaseChanges :
    (after .available (ready [0x40])).phase = .ready ∧
    (after .init { ready [0x24] with phase := .uninit }).phase = .ready ∧ (after .init (ready [0, 0, 0])).phase = .failed := by
  decide
theorem test_witness_ErrorsByCommand :
    (after .init (ready [0, 0, 1])).replies = [.error (.hardwareInit 1)] ∧
    (after (.setMode .tx) (timed [0x04, 0x00] [0, 0, 1000000])).replies = [.error (.modeTimeout .tx)] ∧
    (after (.transmit none [0xAA]) (timed [0x04, 0x04, 0x80, 0x00] [0, 0, 0, 0, 0, 1000000])).replies =
      [.error .transmitTimeout] ∧
    (after (.setConfig badCfg) (ready [0x04])).replies = [.error (.bandwidthRange 250000)] ∧
    (after (.evSend 0) { ready [0x04] with cfg := { cfg with evBitrateBps := 125000 } }).replies =
      [.error (.bandwidthRange 250000)] ∧ (ready []).xferBusy = false := by decide
theorem test_witness_ErrorEndsCommand :
    (∃ t, exec .init (ready [0, 0, 1]) = .next t ∧ t.replies = (ready [0, 0, 1]).replies ++ [.error (.hardwareInit 1)]) ∧
    (CmdError.hardwareInit 1).isFatal = true ∧
    (∃ t, exec (.setConfig badCfg) (ready [0x04]) = .next t ∧
      t.replies = (ready [0x04]).replies ++ [.error (.bandwidthRange 250000)]) ∧
    (CmdError.bandwidthRange 250000).isFatal = false ∧
    (after (.setMode .tx) (timed [0x04, 0x00] [0, 0, 1000000])).replies = [.error (.modeTimeout .tx)] ∧
    (after (.transmit none [0xAA]) (timed [0x04, 0x04, 0x00] [0, 0, 0, 0, 1000000])).replies = [.error (.modeTimeout .tx)] ∧
    (after (.transmit none [0xAA]) (timed [0x04, 0x04, 0x80, 0x08, 0x0C, 0x00] [0, 0, 0, 0, 0, 0, 0, 0, 1000000])).replies =
      [.error (.modeTimeout .standby)] ∧
    (after (.transmit none [0xAA]) (timed [0x04, 0x04, 0x80, 0x08, 0x0C, 0x00] [0, 0, 0, 0, 0, 0, 0, 0, 1000000])).modeMirror =
      none :=
  ⟨⟨after .init (ready [0, 0, 1]), rfl, by decide⟩, rfl, ⟨after (.setConfig badCfg) (ready [0x04]), rfl, by decide⟩, rfl,
    by decide, by decide, by decide, by decide⟩
theorem test_witness_RegReadReturnsAnswer : Ready (ready [0x24]) ∧ (0x7F : Byte).toNat ≤ 0x7F ∧
    (ready [0x24]).radio.answers = [0x24] ∧ (reference [] [0x5A]).radio.kind = .reference ∧
    ((0x00 : Byte).setWidth 7 : Addr) = cfg.regs.fifo ∧ ((0x7F : Byte).setWidth 7 : Addr) ≠ cfg.regs.fifo ∧
    Ready (reference [] []) ∧ PlainRegister cfg (0x7F : Byte).toNat ∧ PlainRegister cfg (0x01 : Byte).toNat ∧
    ((0x10 : Byte).setWidth 7 : Addr) = cfg.regs.version ∧ cfg.regs.version ≠ cfg.regs.fifo :=
  ⟨ready_ready _, by decide, rfl, rfl, by decide, by decide, ⟨rfl, rfl⟩, by unfold PlainRegister; decide,
    by unfold PlainRegister; decide, by decide, by decide⟩
theorem test_witness_AddressRangeRefused : (ready []).phase = .ready ∧ 0x80 ≤ (0x80 : Byte).toNat ∧ 0x80 ≤ (0xFF : Byte).toNat ∧
    1 ≤ [(0 : Byte)].length ∧ [(0 : Byte)].length ≤ 255 ∧ (0x7F : Byte).toNat ≤ 0x7F := by decide
theorem test_witness_BurstStaysInSpace : (ready []).phase = .ready ∧ (0x7F : Byte).toNat ≤ 0x7F ∧
    0x7F < (0x7F : Byte).toNat + [(1 : Byte), 2].length - 1 ∧ ((0x7F : Byte).setWidth 7 : Addr) ≠ cfg.regs.fifo ∧
    (∃ t miso, exec (.regWrite 0x7F [1]) (ready []) = .next t ∧ t.trace = (ready []).trace ++ [.transfer (0xFF :: [1]) miso]) ∧
    (0xFF : Byte).getLsbD 7 = true :=
  ⟨rfl, by decide, by decide, by decide, ⟨_, _, rfl, rfl⟩, by decide⟩
theorem test_witness_RegWriteSendsFrame : Ready (reference [] []) ∧
    (0x7F : Byte).toNat ≤ 0x7F ∧ (0x7F : Byte).toNat + [(1 : Byte)].length ≤ 0x80 ∧
    ((0x7F : Byte).setWidth 7 : Addr) ≠ cfg.regs.fifo ∧ ((0x00 : Byte).setWidth 7 : Addr) = cfg.regs.fifo ∧
    (List.replicate 255 (0 : Byte)).length ≤ 255 ∧ Memory.wf (reference [] []).radio.regs = true ∧
    (reference [] []).radio.kind = .reference ∧ (ready []).radio.kind = .oracle ∧
    ((0x01 : Byte).toNat + 0 = cfg.regs.opmode.toNat ∧ [(0x0C : Byte)][0]? = some 0x0C ∧ modeField cfg 0x0C = modeCode .tx ∧
      ((0x01 : Byte).setWidth 7 : Addr) ≠ cfg.regs.fifo) ∧
    (∀ k v, (0x01 : Byte).toNat + k = cfg.regs.opmode.toNat → [(0x04 : Byte)][k]? = some v →
      modeField cfg v ≠ modeCode .tx) :=
  ⟨⟨rfl, rfl⟩, by decide, by decide, by decide, by decide, by rw [List.length_replicate], rfl, rfl, rfl, by decide,
    fun k v hk hv => by
      obtain rfl : k = 0 := Nat.add_left_cancel (n := 1) hk
      obtain rfl : (0x04 : Byte) = v := by simpa using hv
      decide⟩
theorem test_witness_OverlappingTransferIsFatal :
    ({ ready [] with xferBusy := true }).phase = .ready ∧
    Instr.available.name ∉ [.evEncode, .evDecode, .lsEncode, .lsDecode] ∧
    (after .available { ready [] with xferBusy := true }).fatal = some .concurrentTransfer := by decide
theorem test_witness_ConcurrentTransferUnreachable : Inv (ready [0x40]) ∧ ∃ t, step (ready [0x40]) = .next t :=
  ⟨ready_inv _, _, rfl⟩
theorem test_witness_EveryTransferIsAFrame : ∃ t, exec .available (ready [0x40]) = .next t := ⟨_, rfl⟩
theorem test_witness_MemoryFrame : ∃ t miso, exec (.regWrite 0x07 [1, 2]) (reference [] []) = .next t ∧
    t.trace = (reference [] []).trace ++ [.transfer [0x87, 1, 2] miso] ∧ Instr.regWrite 0x07 [1, 2] ≠ .init ∧
    6 ∉ writtenAddrs cfg (.transfer [0x87, 1, 2] miso) ∧ 9 ∉ writtenAddrs cfg (.transfer [0x87, 1, 2] miso) ∧
    8 ∈ writtenAddrs cfg (.transfer [0x87, 1, 2] miso) ∧ writtenAddrs cfg (.transfer [0x80, 1, 2] miso) = [] :=
  ⟨_, _, rfl, rfl, by decide, by decide, by decide, by decide, rfl⟩
theorem test_witness_ReferenceReadback : Ready (reference [] []) ∧ (reference [] []).radio.kind = .reference ∧
    Memory.wf (reference [] []).radio.regs = true ∧ 1 < [(1 : Byte), 2].length ∧
    (0x7E : Byte).toNat + [(1 : Byte), 2].length ≤ 0x80 ∧ ((0x7E : Byte).setWidth 7 : Addr) ≠ cfg.regs.fifo ∧
    PlainRegister cfg ((0x7E : Byte).toNat + 1) ∧ PlainRegister cfg (0x2F : Byte).toNat ∧ (0x2F : Byte).toNat ≤ 0x7F :=
  ⟨⟨rfl, rfl⟩, rfl, rfl, by decide, by decide, by decide, by unfold PlainRegister; decide, by unfold PlainRegister; decide,
    by decide⟩
theorem test_witness_InitCompletes :
    (({ ready [0, 1, 0x24] with phase := .uninit }).phase = .uninit ∧ ([0, 1] : List Byte).length ≤ 2 ∧
      cfg.versionExpected ∉ ([0, 1] : List Byte) ∧ Answers (ready [0, 1, 0x24]) ([0, 1] ++ [cfg.versionExpected])) ∧
    (reference [] []).radio.kind = .reference ∧ cfg.regs.version ≠ cfg.regs.fifo :=
  ⟨⟨rfl, by decide, by decide, ready_answers _⟩, rfl, by decide⟩
theorem test_witness_InitFailsAfterThreeMismatches : (ready [0, 1, 2]).phase = .ready ∧ (ready [0, 1, 2]).xferBusy = false ∧
    cfg.versionExpected ∉ ([0, 1, 2] : List Byte) ∧ Answers (ready [0, 1, 2]) [0, 1, 2] :=
  ⟨rfl, rfl, by decide, ready_answers _⟩
theorem test_witness_SetModeAtFirstPoll :
    (Ready (ready [0x04]) ∧ ModeGood cfg .standby 0x04 0 ∧ Answers (ready [0x04]) (modeAnswers cfg .standby 0x04 0)) ∧
    ModeGood cfg .rx 0x14 0x80 ∧ Answers (ready [0x14, 0x80]) (modeAnswers cfg .rx 0x14 0x80) :=
  ⟨⟨ready_ready _, .inl (by decide), ready_answers _⟩, .inr (by decide), ready_answers _⟩
theorem test_witness_SetModeEndsReadyOrTimesOut : Ready (timed [0x04, 0x00] [0, 0, 1000000]) ∧ Ready (ready []) :=
  ⟨⟨rfl, rfl⟩, ready_ready _⟩
theorem test_witness_OpmodeWriteValue : cfg.fields.mode.val + 3 ≤ 8 ∧ (5 : Fin 8).val + 3 ≤ 8 ∧ cfg.fields.mode = 2 := by decide
theorem test_witness_SetHighPowerCompletes : Ready (ready [0x9F, 0x1A]) ∧ Answers (ready [0x9F, 0x1A]) [0x9F, 0x1A] :=
  ⟨ready_ready _, ready_answers _⟩
theorem test_witness_ReceivePolling : Ready (ready [0x40]) ∧ Answers (ready [0x40]) [0x40] ∧
    (reference [] [0x8E]).radio.kind = .reference ∧ (reference [] [0x8E]).radio.fifo = [0x8E] :=
  ⟨ready_ready _, ready_answers _, rfl, rfl⟩
theorem test_witness_CarrierValue : (ready []).phase = .ready ∧ (⟨1023999970, 0, 0, 0⟩ : RadioConfig).wf = true ∧
    1023999969 < 1023999970 ∧ (after (.setConfig evCfg) (ready [0x04, 0x86])).replies = [.result .done] := by decide
theorem test_witness_BitRateValue : (ready []).phase = .ready ∧ configOk cfg = true ∧
    (⟨433920000, 50000, 488, 8⟩ : RadioConfig).wf = true ∧ (⟨433920000, 50000, 1, 8⟩ : RadioConfig).wf = true ∧
    64000000 < 64000001 ∧ 0 < evCfg.bitRateBps ∧
    (after (.setConfig evCfg) (ready [0x04, 0x86])).replies = [.result .done] := by decide
theorem test_witness_DeviationValue : (ready []).phase = .ready ∧ configOk cfg = true ∧
    (⟨433920000, 3999970, 2800, 8⟩ : RadioConfig).wf = true ∧ (⟨433920000, 50000, 0, 8⟩ : RadioConfig).bitRateBps = 0 ∧
    0 < evCfg.freqDeviationHz := by decide
theorem test_witness_BandwidthSearchIsSmallest : bwSearch 50000 2800 true = some (16, 2) ∧ bwSearch 1 1 true = some (24, 7) ∧
    bwSearch 249999 1 true = some (16, 0) ∧ bwSearch 250000 1 true = none ∧ bwSearch 499999 1 false = some (16, 0) ∧
    bwSearch 500000 1 false = none := by decide
theorem test_witness_BandwidthFieldKeepsOtherBits : configOk cfg = true ∧ (24, 0) ∈ bwPairs ∧ (16, 7) ∈ bwPairs ∧
    cfg.fields = defaultFieldMap ∧
    fieldMask cfg.fields.rxbwDcc 3 &&& (fieldMask cfg.fields.rxbwMant 2 ||| fieldMask cfg.fields.rxbwExp 3) = 0 ∧
    fieldMask cfg.fields.syncOn 1 &&& fieldMask cfg.fields.syncSize 3 = 0 ∧
    0 < evCfg.bitRateBps ∧ 0 < evCfg.freqDeviationHz ∧ ({ cfg with rxbwWrite := .full 7 }).rxbwWrite = .full 7 ∧
    (after (.setConfig evCfg) { ready [0x04] with cfg := { cfg with rxbwWrite := .full 7 } }).replies =
      [.result .done] := by decide
theorem test_witness_SetConfigCompletes : Ready (ready [0x04, 0x86]) ∧ configOk cfg = true ∧ ConfigInRange cfg evCfg ∧
    ModeGood cfg .standby 0x04 0 ∧ Answers (ready [0x04, 0x86]) (configAnswers cfg evCfg 0x04 0 0x86 0) ∧
    ConfigInRange cfg ⟨1023999969, 0, 489, 0⟩ ∧ ConfigInRange cfg ⟨0, 249999, 489, 0x08⟩ ∧ ConfigInRange cfg ⟨0, 4000000, 0, 0⟩ :=
  ⟨ready_ready _, cfg_ok, by unfold ConfigInRange; decide, .inl (by decide), ready_answers _, by unfold ConfigInRange; decide,
    by unfold ConfigInRange; decide, by unfold ConfigInRange; decide⟩
theorem test_witness_BandwidthRangeErrorKeepsWrites : Ready (ready [0x00, 0x80]) ∧ configOk cfg = true ∧ badCfg.wf = true ∧
    badCfg.carrierFreqHz ≤ 1023999969 ∧ 489 ≤ badCfg.bitRateBps ∧ 0 < badCfg.freqDeviationHz ∧
    badCfg.freqDeviationHz ≤ 3999969 ∧
    max badCfg.freqDeviationHz (2 * badCfg.bitRateBps) ≥ (if isOok cfg badCfg.modulationFlags then 250000 else 500000) ∧
    ModeGood cfg .standby 0x00 0x80 ∧ Answers (ready [0x00, 0x80]) (modeAnswers cfg .standby 0x00 0x80) :=
  ⟨ready_ready _, cfg_ok, by decide, by decide, by decide, by decide, by decide, by decide, .inr (by decide), ready_answers _⟩
theorem test_witness_StandbyTimeoutEndsEarly :
    Ready (timed [0x0C, 0x00] [0, 0, 1000000]) ∧
    (∃ u, exec (.setMode .standby) (timed [0x0C, 0x00] [0, 0, 1000000]) = .next u ∧
      u.replies = (timed [0x0C, 0x00] [0, 0, 1000000]).replies ++ [.error (.modeTimeout .standby)]) ∧
    evCfg.wf = true ∧ setConfigRefusal cfg evCfg = none ∧ (Instr.transmit none [0xAA]).wf = true ∧
    transmitRefusal cfg none [0xAA] = none ∧ evSendRefusal cfg 0x12345 = none ∧ lsSendRefusal cfg 0xFF (some .on) = none :=
  ⟨⟨rfl, rfl⟩, ⟨after (.setMode .standby) (timed [0x0C, 0x00] [0, 0, 1000000]), rfl, by decide⟩, by decide, by decide, by decide,
    by decide, by decide, by decide⟩
theorem test_witness_SetFramingCompletes : Ready (ready []) ∧ configOk cfg = true ∧ framing.wf = true ∧
    (⟨0, 0, 17, none⟩ : FramingConfig).wf = true ∧ (⟨0, 0, 17, some [1, 2, 3, 4, 5, 6, 7, 8]⟩ : FramingConfig).wf = true :=
  ⟨ready_ready _, cfg_ok, by decide, by decide, by decide⟩
theorem test_witness_TransmitCompletes : Ready (ready (quick.list cfg)) ∧
    (Instr.transmit (some (List.replicate 4 0)) (List.replicate 62 0)).wf = true ∧
    (List.replicate 4 (0 : Byte)).length + (List.replicate 62 (0 : Byte)).length ≤ cfg.fifoSize ∧ quick.Good cfg ∧
    Answers (ready (quick.list cfg)) (quick.list cfg) ∧ modeField cfg quick.opmode1 = modeCode .standby ∧
    modeField cfg quick.opmode2 ≠ modeCode .tx ∧ modeField cfg quick.opmode3 ≠ modeCode .standby :=
  ⟨ready_ready _, by decide, by decide, quick_good, ready_answers _, by decide, by decide, by decide⟩
theorem test_witness_TransmitRefusals : (ready []).phase = .ready ∧ (Instr.transmit none []).wf = true ∧
    (Instr.transmit (some (List.replicate 4 0)) (List.replicate 63 0)).wf = true ∧
    cfg.fifoSize < (List.replicate 4 (0 : Byte)).length + (List.replicate 63 (0 : Byte)).length := by decide
theorem test_witness_TransmitTimeoutEnds :
    Ready (timed [0x04, 0x04, 0x80, 0x00] [0, 0, 0, 0, 0, 1000000]) ∧
    (∃ t, exec (.transmit none [0xAA]) (timed [0x04, 0x04, 0x80, 0x00] [0, 0, 0, 0, 0, 1000000]) = .next t ∧
      t.replies = (timed [0x04, 0x04, 0x80, 0x00] [0, 0, 0, 0, 0, 1000000]).replies ++ [.error .transmitTimeout]) ∧
    cfg.txTimeoutRestoresStandby = false ∧
    (after (.transmit none [0xAA]) { timed [0x04, 0x04, 0x80, 0x00, 0x04] [0, 0, 0, 0, 0, 1000000] with
      cfg := { cfg with txTimeoutRestoresStandby := true } }).replies = [.error .transmitTimeout] :=
  ⟨⟨rfl, rfl⟩, ⟨after (.transmit none [0xAA]) (timed [0x04, 0x04, 0x80, 0x00] [0, 0, 0, 0, 0, 1000000]), rfl, by decide⟩, rfl,
    by decide⟩
theorem test_witness_EvEncodeFrame : CodecPhase (ready []) ∧ CodecPhase State.reset := ⟨.inl rfl, .inr rfl⟩
theorem test_witness_EvEncodeReadsTwentyFourBits : (0xFFFFF : BitVec 32).toNat < 2 ^ 20 ∧
    (∀ k, k < 24 → (0x1012345 : BitVec 32).getLsbD k = (0x12345 : BitVec 32).getLsbD k) := by decide
theorem test_witness_EvSendCompletes : Ready (ready (configAnswers cfg evCfg 0x04 0 0x86 0 ++ quick.list cfg)) ∧
    configOk cfg = true ∧ 489 ≤ cfg.evBitrateBps ∧ cfg.evBitrateBps < 125000 ∧ 17 ≤ cfg.fifoSize ∧
    ModeGood cfg .standby 0x04 0 ∧ quick.Good cfg ∧
    Answers (ready (configAnswers cfg evCfg 0x04 0 0x86 0 ++ quick.list cfg)) (configAnswers cfg evCfg 0x04 0 0x86 0 ++ quick.list cfg) :=
  ⟨ready_ready _, cfg_ok, by decide, by decide, by decide, .inl (by decide), quick_good, ready_answers _⟩
theorem test_witness_EvDecodeStep :
    CodecPhase { ready [] with evAcc := evBytes.take 11, evLast := some 10 } ∧ (2 ^ 64 - 1 < 2 ^ 64) ∧
    (evBytes.take 11).length ≤ 11 ∧ (∀ u, some 10 = some u → u ≤ 10) ∧ (9 < 10) ∧ 10000000 < 10000011 - 10 ∧
    (after (.evDecode 0x8F 10) { ready [] with evAcc := evBytes.take 11, evLast := some 10 }).evAcc = [] ∧
    (after (.evDecode 0x8E 10) { ready [] with evAcc := evBytes.take 10, evLast := some 10 }).evAcc.length = 11 :=
  ⟨.inl rfl, by decide, by decide, by simp, by decide, by decide, by decide, by decide⟩
theorem test_witness_EvRoundTrip :
    CodecPhase (ready []) ∧ (∃ u, exec (.evEncode 0xABCDEF) (ready []) = .next u ∧
      u.replies = (ready []).replies ++ [.result (.frame evPreamble (evPayload 0xABCDEF))]) ∧
    ((ready []).cfg.evDecodeWidth = .w24 ∧ (0xABCDEF : BitVec 32).toNat < 2 ^ 24) ∧ (0xFFFFF : BitVec 32).toNat < 2 ^ 20 ∧
    (ready []).evAcc = [] ∧ ((List.range 12).map (· * 10000000)).length = 12 ∧
    (∀ t ∈ (List.range 12).map (· * 10000000), t < 2 ^ 64) ∧ (∀ a ∈ (ready []).evLast, ∀ t ∈ [0], a ≤ t) ∧
    ((List.range 12).map (· * 10000000)).IsChain (fun a b => a ≤ b ∧ b - a ≤ 10000000) :=
  ⟨.inl rfl, ⟨_, rfl, rfl⟩, by decide, by decide, rfl, by decide, by decide, by simp [ready, State.reset], by decide⟩
theorem test_witness_LsEncodeFrame : CodecPhase (ready []) ∧ CodecPhase State.reset := ⟨.inl rfl, .inr rfl⟩
theorem test_witness_LsSendCompletes :
    configOk cfg = true ∧ 489 ≤ cfg.lsBitrateBps ∧ cfg.lsBitrateBps < 125000 ∧ ModeGood cfg .standby 0x04 0 ∧ quick.Good cfg ∧
    cfg.lsRepeatStyle = .separate ∧ 63 ≤ cfg.fifoSize ∧
    (let all := configAnswers cfg (lsConfig cfg) 0x04 0 0x86 0 ++ quick.list cfg ++ quick.list cfg ++ quick.list cfg
     Ready (ready all) ∧ Answers (ready all) all) ∧
    ({ cfg with lsRepeatStyle := .concat }).lsRepeatStyle = .concat :=
  ⟨cfg_ok, by decide, by decide, .inl (by decide), quick_good, rfl, by decide, ⟨ready_ready _, ready_answers _⟩, rfl⟩
theorem test_witness_LsDecodeStep :
    CodecPhase { ready [] with lsAcc := lsBytes.take 12, lsLast := some 10 } ∧ (lsBytes.take 12).length ≤ 12 ∧
    (∀ u, some 10 = some u → u ≤ 10) ∧
    (∃ l u, ({ cfg with lsDecodeTimeout := some 5 }).lsDecodeTimeout = some l ∧ some 10 = some u ∧ l < 16 - u) ∧
    (after (.lsDecode 0x48 10) { ready [] with lsAcc := lsBytes.take 5, lsLast := some 10 }).lsAcc = [] ∧
    (after (.lsDecode 0x40 10) { ready [] with lsAcc := lsBytes.take 5, lsLast := some 10 }).lsAcc.length = 6 :=
  ⟨.inl rfl, by decide, by simp, ⟨5, 10, rfl, rfl, by decide⟩, by decide, by decide⟩
theorem test_witness_LsRoundTrip :
    CodecPhase (ready []) ∧ (∃ u, exec (.lsEncode 0x1FFFFFF (some .off)) (ready []) = .next u ∧
      u.replies = (ready []).replies ++ [.result (.frame (lsPreamble cfg) (lsPayload 0x1FFFFFF (some .off)))]) ∧
    (ready []).lsAcc = [] ∧ (List.range 13).length = 13 ∧ (∀ t ∈ List.range 13, t < 2 ^ 64) ∧
    (∀ a ∈ (ready []).lsLast, ∀ t ∈ List.range 13, a ≤ t) ∧
    (List.range 13).IsChain (fun a b => a ≤ b ∧ ∀ l ∈ cfg.lsDecodeTimeout, b - a ≤ l) :=
  ⟨.inl rfl, ⟨_, rfl, rfl⟩, rfl, by decide, by decide, by simp [ready, State.reset], by simp [cfg, defaultConfig]; decide⟩
theorem test_witness_BrightnessMapping : 100 ≤ 100 ∧ 8 ≤ cfg.brightMarker.bit.val := by decide
theorem test_witness_InvariantKept : Inv (ready [0x40]) ∧ ∃ t, step (putWord [0x16] (ready [0x40])) = .next t :=
  ⟨ready_inv _, _, rfl⟩
theorem test_witness_PowerOnState : ∃ t, step { ready [] with port := [.powerOn] } = .next t := ⟨_, rfl⟩
theorem test_witness_CodecsTouchNoPin : (Instr.evDecode 0x88 0).name ∈ [.evEncode, .evDecode, .lsEncode, .lsDecode] ∧
    (Instr.evDecode 0x88 0).name ≠ .lsDecode ∧ (Instr.lsEncode 0 none).name ≠ .evDecode := by decide
theorem test_witness_MirrorNeverDecides : ∃ t, exec (.setMode .tx) (ready [0x04, 0x80]) = .next t := ⟨_, rfl⟩
theorem test_witness_TimePassesWaits : ∃ t, step (putWord [0x10] State.reset) = .next t := ⟨_, rfl⟩
theorem test_witness_RoundingHalvesUp : 0 < 2 ∧ 0 < 4096 ∧ roundDiv 1 2 = 1 ∧ roundDiv 32000000 4096 = 7813 := by decide
theorem test_witness_PseudoExpansions :
    (∃ t, exec (.regRead 0x11) (ready [0x9F]) = .next t ∧ t.replies = (ready [0x9F]).replies ++ [.result (.byte 0x9F)]) ∧
    ∃ t u, exec .init (ready [0x24]) = .next t ∧ exec .setHighPower t = .next u :=
  ⟨⟨_, rfl, rfl⟩, _, _, rfl, rfl⟩

end Sys2Proof.Tests
end

