-- ==== Sys2Proof/Proofs/Rounding.lean ====
section
/-! PROOF. R12: `roundDiv` is the rational `floor(q + 1/2)`, and where its argument is an exact half. -/

namespace Sys2Proof.Machine

/-- `roundDiv` divides the numerator of `num / den + 1/2` by its denominator `2 * den`: R12's floor. -/
theorem roundDiv_eq_floor (num : Nat) {den : Nat} (hden : 0 < den) :
    roundDiv num den = ⌊(num : ℚ) / den + 1 / 2⌋₊ := by
  have hden' : (den : ℚ) ≠ 0 := by positivity
  have hq : (num : ℚ) / den + 1 / 2 = ((2 * num + den : Nat) : ℚ) / ((2 * den : Nat) : ℚ) := by
    push_cast
    field_simp
  rw [hq, Nat.floor_div_eq_div, roundDiv]

/-- `FSTEP = 15625/256` (R7) with 15625 odd: a tie `512 * f = 15625 * (2 * n + 1)` would make an even number odd. -/
theorem div_fstep_ne_half (f n : Nat) : (f : ℚ) / (32000000 / 2 ^ 19) ≠ n + 1 / 2 := by
  intro h
  have hmul : (512 * f : ℚ) = 15625 * (2 * n + 1) := by
    field_simp at h
    linarith
  have hnat : 512 * f = 15625 * (2 * n + 1) := by exact_mod_cast hmul
  omega

/-- A bit rate meets a tie exactly when `2 * FXOSC / b` is the odd number `2 * n + 1`. -/
theorem fxosc_div_eq_half_iff {b : Nat} (hb : 0 < b) (n : Nat) :
    (32000000 : ℚ) / b = n + 1 / 2 ↔ (2 * n + 1) * b = 64000000 := by
  have hb' : (b : ℚ) ≠ 0 := by positivity
  have hq : (32000000 : ℚ) / b = n + 1 / 2 ↔ ((2 * n + 1) * b : ℚ) = 64000000 := by
    rw [div_eq_iff hb']
    constructor <;> intro h <;> linarith
  rw [hq]
  exact_mod_cast Iff.rfl

/-- `64000000 = 2 ^ 12 * 5 ^ 6`, so its odd divisors are the powers of 5 up to `5 ^ 6`. -/
theorem odd_dvd_64000000 {n : Nat} (h : 2 * n + 1 ∣ 64000000) : ∃ k ≤ 6, 2 * n + 1 = 5 ^ k := by
  have hcop : Nat.Coprime (2 * n + 1) (2 ^ 12) := (Nat.coprime_two_right.mpr ⟨n, rfl⟩).pow_right 12
  have hdvd : 2 * n + 1 ∣ 5 ^ 6 := hcop.dvd_of_dvd_mul_left (by simpa using h)
  exact (Nat.dvd_prime_pow Nat.prime_five).mp hdvd

/-- The cofactors of the odd divisors of `2 * FXOSC` are the seven bit rates R12 lists. -/
theorem exists_odd_mul_eq_64000000_iff (b : Nat) : (∃ n : Nat, (2 * n + 1) * b = 64000000) ↔
    b ∈ [64000000, 12800000, 2560000, 512000, 102400, 20480, 4096] := by
  constructor
  · rintro ⟨n, hn⟩
    obtain ⟨k, hk, hpow⟩ := odd_dvd_64000000 (Dvd.intro b hn)
    rw [hpow] at hn
    simp only [List.mem_cons, List.not_mem_nil, or_false]
    interval_cases k <;> omega
  · intro hb
    simp only [List.mem_cons, List.not_mem_nil, or_false] at hb
    obtain rfl | rfl | rfl | rfl | rfl | rfl | rfl := hb
    · exact ⟨0, rfl⟩
    · exact ⟨2, rfl⟩
    · exact ⟨12, rfl⟩
    · exact ⟨62, rfl⟩
    · exact ⟨312, rfl⟩
    · exact ⟨1562, rfl⟩
    · exact ⟨7812, rfl⟩

/-- Settles O31: ties of `FXOSC / b` are the factorisations of `2 * FXOSC` with an odd factor. -/
theorem roundingHalvesUp : Obligations.RoundingHalvesUp :=
  ⟨fun num _ hden => roundDiv_eq_floor num hden, div_fstep_ne_half,
    fun b hb => (exists_congr (fxosc_div_eq_half_iff hb)).trans (exists_odd_mul_eq_64000000_iff b)⟩

end Sys2Proof.Machine
end

section
/-! PROOF. R52: which frames a command adds to the trace, and the refusal of a burst past the top of the register space. -/

namespace Sys2Proof.Machine

/-! ## What a command adds to the trace -/

/-- What a rule adds to the trace: a read frame (R64), a write frame whose data is not empty and fits (R52, R65), a wait, or a
change of the RESET line. -/
inductive BusEvent (c : Config) : Event → Prop
  | read (a : Addr) (miso : List Byte) : BusEvent c (.transfer (readMosi a) miso)
  | write (a : Addr) (d miso : List Byte) (hd : d ≠ []) (hf : burstFits c a d.length = true) :
    BusEvent c (.transfer (writeMosi a d) miso)
  | wait (n : Nat) : BusEvent c (.wait n)
  | line (l : Level) : BusEvent c (.resetLine l)

/-- `t` has the parameters of `s`, and its trace continues that of `s` by bus events. -/
def AddsBusEvents (s t : State) : Prop :=
  t.cfg = s.cfg ∧ ∃ es, t.trace = s.trace ++ es ∧ ∀ e ∈ es, BusEvent s.cfg e

theorem AddsBusEvents.none {s t : State} (hc : t.cfg = s.cfg) (ht : t.trace = s.trace) : AddsBusEvents s t :=
  ⟨hc, [], by simp [ht], by simp⟩

theorem AddsBusEvents.one {s t : State} {e : Event} (hc : t.cfg = s.cfg) (ht : t.trace = s.trace ++ [e])
    (he : BusEvent s.cfg e) : AddsBusEvents s t :=
  ⟨hc, [e], ht, by simpa using he⟩

theorem AddsBusEvents.trans {s t u : State} (h : AddsBusEvents s t) (k : AddsBusEvents t u) : AddsBusEvents s u := by
  obtain ⟨hc, es, ht, he⟩ := h
  obtain ⟨kc, fs, kt, ke⟩ := k
  rw [hc] at ke
  exact ⟨kc.trans hc, es ++ fs, by rw [kt, ht, List.append_assoc], List.forall_mem_append.2 ⟨he, ke⟩⟩

theorem Bus.addsBusEvents {s t : State} (h : Bus s t) : AddsBusEvents s t := by
  induction h with
  | refl => exact .none rfl rfl
  | read a _ _ ih => exact ih.trans (.one rfl rfl (.read a _))
  | write a d _ _ hd hf ih => exact ih.trans (.one rfl rfl (.write a d _ hd hf))
  | wait n _ ih => exact ih.trans (.one rfl rfl (.wait n))
  | mirror m _ ih => exact ih.trans (.none rfl rfl)

/-- R93: INIT's reset pulse is two line changes and two waits. -/
theorem resetPulse_addsBusEvents (s : State) : AddsBusEvents s (resetPulse s) :=
  ⟨rfl, [.resetLine .high, .wait s.cfg.tResetHigh, .resetLine .low, .wait s.cfg.tResetWait], by simp [resetPulse],
    by simp [BusEvent.wait, BusEvent.line]⟩

theorem Ran.addsBusEvents {i : Instr} {s t : State} (h : Ran i s t) : AddsBusEvents s t := by
  cases i with
  | init =>
    have clear : AddsBusEvents (resetPulse s) (clearOnInit (resetPulse s)) := .none rfl rfl
    exact (resetPulse_addsBusEvents s).trans (clear.trans (Bus.addsBusEvents h))
  | evEncode | lsEncode | evDecode | lsDecode => cases h; exact .none rfl rfl
  | regRead | regWrite | setMode | setConfig | setFraming | setHighPower | transmit | available | readByte | evSend
  | lsSend => exact Bus.addsBusEvents h

/-- Every command adds bus events to the trace and nothing else, under every register map. -/
theorem exec_addsBusEvents {i : Instr} {s t : State} (h : exec i s = .next t) : AddsBusEvents s t := by
  have start : AddsBusEvents s (startCommand s) := .none rfl rfl
  cases exec_cases h with
  | refused r => exact .none rfl rfl
  | returned r u _ ran => exact start.trans (ran.addsBusEvents.trans (.none rfl rfl))
  | error e u _ ran _ => exact start.trans (ran.addsBusEvents.trans (.none rfl rfl))

/-- R52, R88: a burst that fits goes to the FIFO port or ends at 0x7F or below. -/
theorem burstFits_iff {c : Config} {a : Addr} {n : Nat} :
    burstFits c a n = true ↔ a = c.regs.fifo ∨ a.toNat + n ≤ 0x80 := by
  simp [burstFits]

/-- The data of a bus event that is a write frame is not empty and fits. -/
theorem BusEvent.write_fits {c : Config} {h : Byte} {data miso : List Byte}
    (hev : BusEvent c (.transfer (h :: data) miso)) (hbit : h.getLsbD 7 = true) :
    data ≠ [] ∧ burstFits c (h.setWidth 7) data.length = true := by
  cases hev with
  | read a => exact absurd hbit (Bool.eq_false_iff.1 (readHeader_bit7 a))
  | write a _ _ hd hf => exact ⟨hd, by rwa [writeHeader_addr]⟩

/-! ## The refusal -/

/-- In READY a well-formed command meets its own checks alone (R141). -/
theorem admission_ready {i : Instr} {ch : Option Reason} {s : State} (hp : s.phase = .ready) (hwf : i.wf = true) :
    admission i ch s = ch := by
  have hphase : phaseRefusal i.name s = none := phaseRefusal_eq_none.2 (.inl hp)
  have hops : check (operandChecks i) .badOperand = none := check_eq_none.2 hwf
  cases ch <;> simp [admission, hphase, hops]

/-- R88: of the checks of REG_WRITE only the burst's end refuses a non-empty write at an address in range. -/
theorem regWriteRefusal_of_not_burstFits {c : Config} {a : Byte} {data : List Byte} (ha : a.toNat ≤ 0x7F)
    (hd : data ≠ []) (hf : burstFits c (a.setWidth 7) data.length = false) :
    regWriteRefusal c a data = some .addrRange := by
  simp [regWriteRefusal, check, addrInRange, ha, hd, hf]

/-- Settles O17: the refusal is the last of REG_WRITE's own checks (R88); that no command makes such a frame is an induction
over the bus sequences its rule can run, each write of which was checked to fit. -/
theorem burstStaysInSpace : Obligations.BurstStaysInSpace := by
  refine ⟨fun s a data hp ha hmin hmax htop hfifo => ?_, fun i s t es h data miso hx ht hmem hbit => ?_⟩
  · have hwf : (Instr.regWrite a data).wf = true := by simp [Instr.wf, hmin, hmax]
    have haddr : (a.setWidth 7 : Addr).toNat = a.toNat := by
      rw [BitVec.toNat_setWidth]
      omega
    have hf : burstFits s.cfg (a.setWidth 7) data.length = false := by
      rw [Bool.eq_false_iff, ne_eq, burstFits_iff, haddr]
      exact not_or.2 ⟨hfifo, by omega⟩
    refine command_refused ((admission_ready hp hwf).trans (regWriteRefusal_of_not_burstFits ha ?_ hf))
    exact List.length_pos_iff.1 hmin
  · obtain ⟨_, fs, hfs, hev⟩ := exec_addsBusEvents hx
    obtain rfl : fs = es := List.append_cancel_left (hfs.symm.trans ht)
    obtain ⟨hd, hf⟩ := (hev _ hmem).write_fits hbit
    exact ⟨hd, (burstFits_iff.1 hf).imp_right fun hle => by omega⟩

end Sys2Proof.Machine
end

section
/-! PROOF. Encodings of 30_encoding.md: the mode field of OPMODE, the frames EV_ENCODE and LS_ENCODE return, the opcode table,
and the refusals of REG_READ and REG_WRITE for their operands. -/

namespace Sys2Proof.Machine

/-! ## Fields of a byte (R10, R40) -/

theorem fieldMask_getLsbD (lo w k : Nat) :
    (fieldMask lo w).getLsbD k = decide (k < 8 ∧ lo ≤ k ∧ k < lo + w) := by
  have hend : lo ≤ k ∧ k < lo + w ↔ lo ≤ k ∧ k - lo < w := by omega
  simp [fieldMask, BitVec.getLsbD_ofNat, Nat.testBit_mul_two_pow, Nat.testBit_two_pow_sub_one, hend]

theorem fieldPut_getLsbD (lo : Nat) (x : Byte) (k : Nat) :
    (fieldPut lo x).getLsbD k = (decide (k < 8 ∧ lo ≤ k) && x.getLsbD (k - lo)) := by
  rw [fieldPut, BitVec.getLsbD_shiftLeft]
  by_cases hlo : k < lo
  · simp [hlo, Nat.not_le.2 hlo]
  · simp [hlo, Nat.le_of_not_lt hlo]

theorem fieldGet_getLsbD (lo w : Nat) (v : Byte) (k : Nat) :
    (fieldGet lo w v).getLsbD k = (decide (k < w) && v.getLsbD (lo + k)) := by
  rw [fieldGet, BitVec.getLsbD_ushiftRight, BitVec.getLsbD_and, fieldMask_getLsbD]
  by_cases hk : lo + k < 8
  · simp [hk, Bool.and_comm]
  · simp [BitVec.getLsbD_of_ge _ _ (Nat.le_of_not_lt hk)]

/-- A value below `2 ^ w` has no bit from `w` up. -/
theorem getLsbD_of_toNat_lt_two_pow {n w k : Nat} {x : BitVec n} (hx : x.toNat < 2 ^ w) (hk : w ≤ k) :
    x.getLsbD k = false :=
  Nat.testBit_lt_two_pow (hx.trans_le (Nat.pow_le_pow_right (by decide) hk))

/-- The byte `old` with the value `x` in its field of `w` bits from bit `lo` up. -/
def fieldSet (lo w : Nat) (old x : Byte) : Byte := (old &&& ~~~(fieldMask lo w)) ||| fieldPut lo x

theorem fieldSet_getLsbD_inside {lo w k : Nat} (old x : Byte) (hfit : lo + w ≤ 8) (hk : k < w) :
    (fieldSet lo w old x).getLsbD (lo + k) = x.getLsbD k := by
  have hbyte : lo + k < 8 := by omega
  rw [fieldSet, BitVec.getLsbD_or, BitVec.getLsbD_and, BitVec.getLsbD_not, fieldMask_getLsbD, fieldPut_getLsbD]
  simp [hk, hbyte]

theorem fieldSet_getLsbD_outside {lo w k : Nat} (old : Byte) {x : Byte} (hx : x.toNat < 2 ^ w)
    (hk : k < lo ∨ lo + w ≤ k) : (fieldSet lo w old x).getLsbD k = old.getLsbD k := by
  have hmask : (fieldMask lo w).getLsbD k = false := by
    rw [fieldMask_getLsbD]
    exact decide_eq_false (by omega)
  have hput : (fieldPut lo x).getLsbD k = false := by
    rw [fieldPut_getLsbD]
    rcases hk with hlow | hhigh
    · simp [Nat.not_le.2 hlow]
    · simp [getLsbD_of_toNat_lt_two_pow hx (show w ≤ k - lo by omega)]
  rw [fieldSet, BitVec.getLsbD_or, BitVec.getLsbD_and, BitVec.getLsbD_not, hmask, hput]
  by_cases h8 : k < 8
  · simp [h8]
  · simp [BitVec.getLsbD_of_ge _ _ (Nat.le_of_not_lt h8)]

/-- A field that fits its byte reads back the value put in it, if that value fits the field. -/
theorem fieldGet_fieldSet {lo w : Nat} (old : Byte) {x : Byte} (hfit : lo + w ≤ 8) (hx : x.toNat < 2 ^ w) :
    fieldGet lo w (fieldSet lo w old x) = x := by
  refine BitVec.eq_of_getLsbD_eq fun k _ => ?_
  rw [fieldGet_getLsbD]
  by_cases hk : k < w
  · simp [hk, fieldSet_getLsbD_inside old x hfit hk]
  · simp [hk, getLsbD_of_toNat_lt_two_pow hx (Nat.le_of_not_lt hk)]

theorem opmodeValue_eq_fieldSet (c : Config) (old : Byte) (m : Mode) :
    opmodeValue c old m = fieldSet c.fields.mode 3 old (modeCode m) := rfl

/-- R67: every mode code fits the three bits of `F_MODE`. -/
theorem modeCode_lt (m : Mode) : (modeCode m).toNat < 2 ^ 3 := by
  cases m <;> decide

/-- Settles O28: OPMODE's write sets the field of R68, whose default mask is `0x1C`. -/
theorem opmodeWriteValue : Obligations.OpmodeWriteValue := by
  refine ⟨fun c old m hfit => ?_, fun c old m hmode => ?_, rfl⟩
  · rw [opmodeValue_eq_fieldSet]
    exact ⟨fieldGet_fieldSet old hfit (modeCode_lt m), fun k hk => fieldSet_getLsbD_outside old (modeCode_lt m) hk⟩
  · have hmask : ~~~(fieldMask 2 3) = 0xE3 := by decide
    rw [opmodeValue, modeMask, hmode]
    exact congrArg (fun mask => (old &&& mask) ||| fieldPut 2 (modeCode m)) hmask

/-! ## Commands that touch nothing but their reply -/

/-- In UNINIT and READY a codec command without checks of its own is admitted (R141). -/
theorem admission_codec {i : Instr} {s : State} (hp : CodecPhase s) (hadm : admittedUninit i.name = true)
    (hwf : i.wf = true) : admission i none s = none :=
  admission_eq_none.2 ⟨hp.imp_right fun hu => ⟨hu, hadm⟩, hwf, rfl⟩

/-- An admitted command other than INIT whose rule leaves the state alone adds its result to the replies and discards the step
index (R33, R141). -/
theorem command_pure {i : Instr} {ch : Option Reason} {body : State → Res CmdResult} {s : State} {r : CmdResult}
    (hadm : admission i ch s = none) (hinit : i.name ≠ .init) (hbody : body (startCommand s) = .ok r (startCommand s)) :
    command i ch body s = .next { s with stepIdx := 0, replies := s.replies ++ [.result r] } := by
  rw [command_admitted hadm, hbody]
  simp [endCommand, endOnReturn, phaseAfter, hinit, startCommand]

theorem exec_evEncode {s : State} (hp : CodecPhase s) (code : BitVec 32) :
    exec (.evEncode code) s =
      .next { s with stepIdx := 0, replies := s.replies ++ [.result (.frame evPreamble (evPayload code))] } :=
  command_pure (admission_codec hp rfl rfl) CmdName.noConfusion rfl

theorem exec_lsEncode {s : State} (hp : CodecPhase s) (code : BitVec 32) (st : Option LsState) :
    exec (.lsEncode code st) s =
      .next { s with stepIdx := 0, replies := s.replies ++ [.result (.frame (lsPreamble s.cfg) (lsPayload code st))] } :=
  command_pure (admission_codec hp rfl rfl) CmdName.noConfusion rfl

/-! ## The frames -/

theorem evData_length (code : BitVec 32) : (evData code).length = 12 := by simp [evData, evFrameBytes]

theorem evData_getElem? (code : BitVec 32) {k : Nat} (hk : k < 12) : (evData code)[k]? = some (evDataByte code k) := by
  simp [evData, evFrameBytes, hk]

/-- Settles O44: the twelve bytes are `evDataByte` at 0 to 11, whose nibbles are R76's. -/
theorem evEncodeFrame : Obligations.EvEncodeFrame := fun _ code hp =>
  ⟨evData code, evData_length code, fun _ hk => evData_getElem? code hk, exec_evEncode hp code⟩

theorem lsPreamble_length (c : Config) : (lsPreamble c).length = 7 := by simp [lsPreamble, lsPreambleLen]

theorem lsPreamble_getElem? (c : Config) {k : Nat} (hk : k < 7) :
    (lsPreamble c)[k]? = some (if k = c.lsPreMark.val then 0x80 else 0x00) := by
  simp [lsPreamble, lsPreambleLen, hk]

theorem lsData_length (code : BitVec 32) (st : Option LsState) : (lsData code st).length = 13 := by
  simp [lsData, lsFrameBytes]

theorem lsData_getElem? (code : BitVec 32) (st : Option LsState) {k : Nat} (hk : k < 13) :
    (lsData code st)[k]? = some (lsDataByte (lsMarker code st) k) := by
  simp [lsData, lsFrameBytes, hk]

/-- R127: before the last data byte both nibbles come from code bits. -/
theorem lsDataByte_of_lt (c : BitVec 25) {k : Nat} (hk : k < 12) :
    lsDataByte c k = nibbles (lsNibble (c.getLsbD (24 - 2 * k))) (lsNibble (c.getLsbD (23 - 2 * k))) := by
  rw [lsDataByte, if_pos hk]

/-- The mask of bits 23..20 that the marker step replaces (R126). -/
theorem lsMarkMask_getLsbD (k : Nat) : ((0xF : BitVec 25) <<< 20).getLsbD k = decide (20 ≤ k ∧ k < 24) := by
  have hones : (0xF : BitVec 25) = (BitVec.allOnes 4).setWidth 25 := rfl
  rw [hones, BitVec.getLsbD_shiftLeft, BitVec.getLsbD_setWidth, BitVec.getLsbD_allOnes, Bool.eq_iff_iff]
  simp only [Bool.and_eq_true, Bool.not_eq_true', decide_eq_true_eq, decide_eq_false_iff_not]
  omega

/-- Bits 19..0 and bit 24 of the code are kept by the marker step (R126). -/
theorem lsMarker_getLsbD_kept (code : BitVec 32) (st : Option LsState) {k : Nat} (hk : k < 20 ∨ k = 24) :
    (lsMarker code st).getLsbD k = code.getLsbD k := by
  have hmask : ((0xF : BitVec 25) <<< 20).getLsbD k = false := by
    rw [lsMarkMask_getLsbD]
    exact decide_eq_false (by omega)
  have hmark : ((lsMark st).setWidth 25 <<< 20).getLsbD k = false := by
    rw [BitVec.getLsbD_shiftLeft, BitVec.getLsbD_setWidth]
    rcases hk with hlow | rfl
    · simp [hlow]
    · simp
  have h25 : k < 25 := by omega
  rw [lsMarker, BitVec.getLsbD_or, BitVec.getLsbD_and, BitVec.getLsbD_not, hmask, hmark, BitVec.getLsbD_setWidth]
  simp [h25]

/-- Bits 23..20 hold the marker (R126). -/
theorem lsMarker_extractLsb' (code : BitVec 32) (st : Option LsState) : (lsMarker code st).extractLsb' 20 4 = lsMark st := by
  refine BitVec.eq_of_getLsbD_eq fun k hk => ?_
  have h25 : 20 + k < 25 := by omega
  have hmask : ((0xF : BitVec 25) <<< 20).getLsbD (20 + k) = true := by
    rw [lsMarkMask_getLsbD]
    exact decide_eq_true (by omega)
  have hmark : ((lsMark st).setWidth 25 <<< 20).getLsbD (20 + k) = (lsMark st).getLsbD k := by
    rw [BitVec.getLsbD_shiftLeft, BitVec.getLsbD_setWidth, Nat.add_sub_cancel_left]
    simp [h25, hk.trans (by decide : 4 < 25)]
  rw [BitVec.getLsbD_extractLsb', lsMarker, BitVec.getLsbD_or, BitVec.getLsbD_and, BitVec.getLsbD_not, hmask, hmark]
  simp [hk]

/-- Settles O50: the frame is the preamble of R125 and `lsDataByte` at 0 to 12 of the code after the marker step. -/
theorem lsEncodeFrame : Obligations.LsEncodeFrame := by
  intro s code st hp
  refine ⟨lsMarker code st, lsPreamble s.cfg, lsData code st, fun k hk => lsMarker_getLsbD_kept code st hk, ?marker,
    lsPreamble_length s.cfg, fun k hk => lsPreamble_getElem? s.cfg hk, lsData_length code st, fun k hk => ?pair,
    lsData_getElem? code st (by decide), exec_lsEncode hp code st⟩
  case marker =>
    rw [lsMarker_extractLsb']
    rcases st with _ | _ | _ <;> rfl
  case pair => exact (lsData_getElem? code st (by omega)).trans (congrArg some (lsDataByte_of_lt _ hk))

/-! ## The opcode table -/

/-- R82: each opcode byte of the table names its command. -/
theorem nameOfOpcode_opcode (n : CmdName) : nameOfOpcode n.opcode = some n := by
  cases n <;> rfl

theorem nameOfOpcode_eq_none {op : Byte} (h : op ∉ CmdName.all.map CmdName.opcode) : nameOfOpcode op = none := by
  refine List.find?_eq_none.2 fun n hn heq => h ?_
  exact List.mem_map.2 ⟨n, hn, eq_of_beq heq⟩

/-- R82: a word whose opcode byte names no command is refused, whatever the phase. -/
theorem runWord_badOpcode {op : Byte} (h : nameOfOpcode op = none) (ops : List Byte) (s : State) :
    runWord (op :: ops) s = .next (refuse .badOpcode s) := by
  simp [runWord, decode, h]

theorem step_issue {s : State} {word : List Byte} {rest : List HostCall} (h : s.port = .issue word :: rest) :
    step s = runWord word { s with port := rest } := by
  simp [step, takeCall, h]

/-- Settles O4: the rows are read off the definitions; a byte that is no row's opcode decodes to no command. -/
theorem opcodeTable : Obligations.OpcodeTable :=
  ⟨rfl, nameOfOpcode_opcode, fun _ ops _ _ hop hport =>
    (step_issue hport).trans (runWord_badOpcode (nameOfOpcode_eq_none hop) ops _)⟩

/-! ## The refusals of R66 -/

/-- R66: an address from 0x80 up is not in range. -/
theorem addrInRange_eq_false {a : Byte} (ha : 0x80 ≤ a.toNat) : addrInRange a = false :=
  decide_eq_false (by omega)

theorem regReadRefusal_addrRange {a : Byte} (ha : 0x80 ≤ a.toNat) : regReadRefusal a = some .addrRange := by
  simp [regReadRefusal, check, addrInRange_eq_false ha]

/-- R88: the address check is the first of REG_WRITE's own. -/
theorem regWriteRefusal_addrRange (c : Config) {a : Byte} (ha : 0x80 ≤ a.toNat) (data : List Byte) :
    regWriteRefusal c a data = some .addrRange := by
  simp [regWriteRefusal, check, addrInRange_eq_false ha]

/-- R88: an empty write at an address in range fails the second check. -/
theorem regWriteRefusal_nil (c : Config) {a : Byte} (ha : a.toNat ≤ 0x7F) : regWriteRefusal c a [] = some .emptyWrite := by
  simp [regWriteRefusal, check, addrInRange, ha]

/-- In READY the operand check comes before a command's own checks (R141). -/
theorem admission_ready_malformed {i : Instr} {ch : Option Reason} {s : State} (hp : s.phase = .ready)
    (hwf : i.wf = false) : admission i ch s = some .badOperand := by
  have hphase : phaseRefusal i.name s = none := phaseRefusal_eq_none.2 (.inl hp)
  simp [admission, hphase, operandChecks, check, hwf]

/-- Settles O16: each refusal is the first check that fails (R141), before the command's rule runs. -/
theorem addressRangeRefused : Obligations.AddressRangeRefused := by
  refine ⟨fun s a hp ha => ?_, fun s a data hp ha hmin hmax => ?_, fun c a ha => regWriteRefusal_nil c ha, fun s a hp => ?_⟩
  · exact command_refused ((admission_ready hp rfl).trans (regReadRefusal_addrRange ha))
  · have hwf : (Instr.regWrite a data).wf = true := by simp [Instr.wf, hmin, hmax]
    exact command_refused ((admission_ready hp hwf).trans (regWriteRefusal_addrRange s.cfg ha data))
  · exact command_refused (admission_ready_malformed hp rfl)

end Sys2Proof.Machine
end

section
/-! PROOF. R101 to R103: the values SET_CONFIG computes, when they fit their registers, its refusal where they do not, and the
frames it has sent when it completes. -/

namespace Sys2Proof.Machine

/-! ## The values -/

theorem roundDiv_lt_iff (num k : Nat) {den : Nat} (hden : 0 < den) :
    roundDiv num den < k ↔ 2 * num + den < k * (2 * den) :=
  Nat.div_lt_iff_lt_mul (Nat.mul_pos two_pos hden)

theorem fxosc_pos : 0 < fxosc := by decide

/-- R101, R103: a frequency in steps of FSTEP, rounded. -/
theorem roundDiv_fstep_eq_floor (f : Nat) : roundDiv (f * 2 ^ 19) fxosc = ⌊(f : ℚ) / (32000000 / 2 ^ 19) + 1 / 2⌋₊ := by
  have hq : ((f * 2 ^ 19 : Nat) : ℚ) / (fxosc : Nat) = f / (32000000 / 2 ^ 19) := by
    rw [fxosc, div_div_eq_mul_div]
    push_cast
    rfl
  rw [roundDiv_eq_floor _ fxosc_pos, hq]

theorem frfValue_lt_iff (f : Nat) : frfValue f < 2 ^ 24 ↔ f ≤ 1023999969 := by
  rw [frfValue, roundDiv_lt_iff _ _ fxosc_pos, fxosc]
  omega

theorem fdValue_lt_iff (d : Nat) : fdValue d < 2 ^ 16 ↔ d ≤ 3999969 := by
  rw [fdValue, roundDiv_lt_iff _ _ fxosc_pos, fxosc]
  omega

theorem brValue_lt_iff {b : Nat} (hb : 0 < b) : brValue b < 2 ^ 16 ↔ 489 ≤ b := by
  rw [brValue, roundDiv_lt_iff _ _ hb, fxosc]
  omega

/-- U12: a bit rate above `2 * FXOSC` rounds to 0. -/
theorem brValue_eq_zero {b : Nat} (hb : 64000000 < b) : brValue b = 0 := by
  rw [← Nat.lt_one_iff, brValue, roundDiv_lt_iff _ _ (by omega), fxosc]
  omega

/-- R12, R102: each of the seven bit rates, here as rationals, meets a tie. -/
theorem fxosc_tie_of_mem {b : ℚ} (hb : b ∈ [64000000, 12800000, 2560000, 512000, 102400, 20480, 4096]) :
    ∃ n : Nat, (32000000 : ℚ) / b = n + 1 / 2 := by
  have hcast : ([64000000, 12800000, 2560000, 512000, 102400, 20480, 4096] : List ℚ) =
      [64000000, 12800000, 2560000, 512000, 102400, 20480, 4096].map ((↑) : Nat → ℚ) := by simp
  rw [hcast] at hb
  obtain ⟨k, hk, rfl⟩ := List.mem_map.1 hb
  obtain ⟨n, hn⟩ := (exists_odd_mul_eq_64000000_iff k).2 hk
  have hpos : 0 < k := Nat.pos_of_ne_zero (by rintro rfl; omega)
  exact ⟨n, (fxosc_div_eq_half_iff hpos n).2 hn⟩

/-! ## The refusals -/

/-- R109: the deviation is used when both quantities are positive. -/
theorem usesDeviation_iff {rc : RadioConfig} : usesDeviation rc = true ↔ 0 < rc.bitRateBps ∧ 0 < rc.freqDeviationHz := by
  simp [usesDeviation]

theorem setConfigRefusal_carrier (c : Config) {rc : RadioConfig} (h : 1023999969 < rc.carrierFreqHz) :
    setConfigRefusal c rc = some .valueRange := by
  have hval : ¬ frfValue rc.carrierFreqHz < 2 ^ 24 := by
    rw [frfValue_lt_iff]
    omega
  rw [setConfigRefusal, decide_eq_false hval]
  rfl

/-- The bursts of SET_CONFIG fit under consistent parameters. -/
theorem configOk_bursts {c : Config} (h : configOk c = true) :
    burstFits c c.regs.frf 3 = true ∧ burstFits c c.regs.bitrate 2 = true ∧ burstFits c c.regs.fdev 2 = true := by
  simp only [configOk, Bool.and_eq_true] at h
  tauto

/-- Under consistent parameters the one refusal SET_CONFIG has is that of a value which does not fit. -/
theorem setConfigRefusal_of_configOk {c : Config} (h : configOk c = true) (rc : RadioConfig) :
    setConfigRefusal c rc = check (decide (frfValue rc.carrierFreqHz < 2 ^ 24) &&
      (decide (rc.bitRateBps = 0) || decide (brValue rc.bitRateBps < 2 ^ 16)) &&
      (!usesDeviation rc || decide (fdValue rc.freqDeviationHz < 2 ^ 16))) .valueRange := by
  obtain ⟨hfrf, hbitrate, hfdev⟩ := configOk_bursts h
  rw [setConfigRefusal, hfrf, hbitrate, hfdev, Bool.or_true, Bool.or_true]
  cases decide (frfValue rc.carrierFreqHz < 2 ^ 24) with
  | false => rfl
  | true =>
    cases (decide (rc.bitRateBps = 0) || decide (brValue rc.bitRateBps < 2 ^ 16)) with
    | false => rfl
    | true => cases (!usesDeviation rc || decide (fdValue rc.freqDeviationHz < 2 ^ 16)) <;> rfl

theorem setConfigRefusal_bitRate {c : Config} {rc : RadioConfig} (hok : configOk c = true) (hpos : 0 < rc.bitRateBps)
    (h : rc.bitRateBps < 489) : setConfigRefusal c rc = some .valueRange := by
  have hval : ¬ brValue rc.bitRateBps < 2 ^ 16 := by
    rw [brValue_lt_iff hpos]
    omega
  rw [setConfigRefusal_of_configOk hok, decide_eq_false hval, decide_eq_false hpos.ne']
  simp [check]

theorem setConfigRefusal_deviation {c : Config} {rc : RadioConfig} (hok : configOk c = true) (hpos : 0 < rc.bitRateBps)
    (h : 3999969 < rc.freqDeviationHz) : setConfigRefusal c rc = some .valueRange := by
  have hval : ¬ fdValue rc.freqDeviationHz < 2 ^ 16 := by
    rw [fdValue_lt_iff]
    omega
  have huses : usesDeviation rc = true := usesDeviation_iff.2 ⟨hpos, by omega⟩
  rw [setConfigRefusal_of_configOk hok, decide_eq_false hval, huses]
  simp [check]

/-- R103: a deviation that is not used is not checked. -/
theorem setConfigRefusal_deviation_unused (c : Config) {rc : RadioConfig} (h : rc.bitRateBps = 0) (d : Nat) :
    setConfigRefusal c { rc with freqDeviationHz := d } = setConfigRefusal c rc := by
  simp [setConfigRefusal, usesDeviation, h]

/-- In READY a well-formed SET_CONFIG that fails one of its own checks is refused without effect (R140). -/
theorem exec_setConfig_refused {s : State} {rc : RadioConfig} {r : Reason} (hp : s.phase = .ready) (hwf : rc.wf = true)
    (h : setConfigRefusal s.cfg rc = some r) : exec (.setConfig rc) s = .next (refuse r s) :=
  command_refused ((admission_ready (i := .setConfig rc) hp hwf).trans h)

/-! ## Frames sent on the way -/

theorem sent_append (es fs : List Event) : sent (es ++ fs) = sent es ++ sent fs := by
  induction es with
  | nil => rfl
  | cons e es ih => cases e <;> simp [sent, ih]

/-- `t` has the parameters of `s`, and its trace continues that of `s`. -/
structure Continues (s t : State) : Prop where
  cfg : t.cfg = s.cfg
  trace : s.trace <+: t.trace

/-- The frame `m` was sent on the way from `s` to `t`. -/
def SentBetween (m : List Byte) (s t : State) : Prop := ∃ es, t.trace = s.trace ++ es ∧ m ∈ sent es

theorem Continues.refl (s : State) : Continues s s := ⟨rfl, [], List.append_nil _⟩

theorem Continues.trans {s t u : State} (h : Continues s t) (k : Continues t u) : Continues s u :=
  ⟨k.cfg.trans h.cfg, h.trace.trans k.trace⟩

theorem SentBetween.before {m : List Byte} {s t u : State} (h : Continues s t) (k : SentBetween m t u) :
    SentBetween m s u := by
  obtain ⟨es, hes⟩ := h.trace
  obtain ⟨fs, hfs, hm⟩ := k
  refine ⟨es ++ fs, by rw [hfs, ← hes, List.append_assoc], ?_⟩
  rw [sent_append]
  exact List.mem_append_right _ hm

theorem SentBetween.after {m : List Byte} {s t u : State} (h : SentBetween m s t) (k : Continues t u) :
    SentBetween m s u := by
  obtain ⟨es, hes, hm⟩ := h
  obtain ⟨fs, hfs⟩ := k.trace
  refine ⟨es ++ fs, by rw [← hfs, hes, List.append_assoc], ?_⟩
  rw [sent_append]
  exact List.mem_append_left _ hm

/-- The events a trace grew by hold every frame sent on the way. -/
theorem SentBetween.mem {m : List Byte} {s t : State} {es : List Event} (h : SentBetween m s t)
    (ht : t.trace = s.trace ++ es) : m ∈ sent es := by
  obtain ⟨fs, hfs, hm⟩ := h
  rwa [List.append_cancel_left (ht.symm.trans hfs)]

theorem Bus.continues {s t : State} (h : Bus s t) : Continues s t := by
  obtain ⟨hcfg, es, hes, _⟩ := h.addsBusEvents
  exact ⟨hcfg, es, hes.symm⟩

theorem Bus.continues_of_ok {α : Type} {r : Res α} {a : α} {s t : State} (h : Bus s r.state) (k : r = .ok a t) :
    Continues s t := by
  rw [k] at h
  exact h.continues

/-! ## The writes of SET_CONFIG's rule (R109) -/

/-- A register write that completes has sent its frame (R65, R88). -/
theorem regWrite_ok {a : Addr} {d : List Byte} {s t : State} (k : regWrite a d s = .ok () t) :
    Continues s t ∧ SentBetween (writeMosi a d) s t := by
  have hidle : s.xferBusy = false := by
    cases hb : s.xferBusy with
    | false => rfl
    | true =>
      rw [regWrite_busy hb] at k
      cases k
  rw [regWrite_idle hidle] at k
  cases k
  exact ⟨⟨rfl, _, rfl⟩, _, rfl, List.mem_singleton_self _⟩

theorem writeBitRate_ok {rc : RadioConfig} {s t : State} (k : writeBitRate rc s = .ok () t) :
    Continues s t ∧
      (0 < rc.bitRateBps → SentBetween (writeMosi s.cfg.regs.bitrate (msbFirst 2 (brValue rc.bitRateBps))) s t) := by
  unfold writeBitRate at k
  split at k
  · obtain ⟨hcont, hsent⟩ := regWrite_ok k
    exact ⟨hcont, fun _ => hsent⟩
  · next hzero =>
    cases k
    exact ⟨.refl s, fun hpos => absurd hpos hzero⟩

theorem writeDeviation_ok {rc : RadioConfig} {s t : State} (k : writeDeviation rc s = .ok () t) :
    Continues s t ∧ (usesDeviation rc = true →
      SentBetween (writeMosi s.cfg.regs.fdev (msbFirst 2 (fdValue rc.freqDeviationHz))) s t) := by
  unfold writeDeviation at k
  split at k
  · obtain ⟨_, u, hwrite, hsearch⟩ := Res.bind_eq_ok k
    obtain ⟨hcont, hsent⟩ := regWrite_ok hwrite
    have hrest : Continues u t := (searchAndWriteBw_bus rc u).continues_of_ok hsearch
    exact ⟨hcont.trans hrest, fun _ => hsent.after hrest⟩
  · next hunused =>
    cases k
    exact ⟨.refl s, fun huses => absurd huses hunused⟩

/-- What a configuration that completed has sent: the carrier frequency, the bit rate when it is positive, the deviation when
it is used. -/
theorem setConfig_ok {rc : RadioConfig} {s t : State} (k : setConfig rc s = .ok () t) :
    SentBetween (writeMosi s.cfg.regs.frf (msbFirst 3 (frfValue rc.carrierFreqHz))) s t ∧
      (0 < rc.bitRateBps → SentBetween (writeMosi s.cfg.regs.bitrate (msbFirst 2 (brValue rc.bitRateBps))) s t) ∧
      (usesDeviation rc = true →
        SentBetween (writeMosi s.cfg.regs.fdev (msbFirst 2 (fdValue rc.freqDeviationHz))) s t) := by
  obtain ⟨_, u, hmode, k⟩ := Res.bind_eq_ok k
  obtain ⟨_, v, hfrf, k⟩ := Res.bind_eq_ok k
  obtain ⟨_, w, hmodul, k⟩ := Res.bind_eq_ok k
  obtain ⟨_, x, hbitRate, hdeviation⟩ := Res.bind_eq_ok k
  have hu : Continues s u := (setMode_bus .standby s).continues_of_ok hmode
  obtain ⟨hv, sentFrf⟩ := regWrite_ok hfrf
  obtain ⟨hw, _⟩ := regWrite_ok hmodul
  obtain ⟨hx, sentBitRate⟩ := writeBitRate_ok hbitRate
  obtain ⟨ht, sentDeviation⟩ := writeDeviation_ok hdeviation
  have hsw : Continues s w := (hu.trans hv).trans hw
  have hsx : Continues s x := hsw.trans hx
  rw [hu.cfg] at sentFrf
  rw [hsw.cfg] at sentBitRate
  rw [hsx.cfg] at sentDeviation
  exact ⟨(sentFrf.before hu).after ((hw.trans hx).trans ht), fun hpos => ((sentBitRate hpos).before hsw).after ht,
    fun huses => (sentDeviation huses).before hsx⟩

/-! ## A command that completes -/

/-- A command whose outcome is a result was admitted, and its rule returned that result. -/
theorem command_returned {i : Instr} {ch : Option Reason} {body : State → Res CmdResult} {s t : State} {r : CmdResult}
    (h : command i ch body s = .next t) (hr : t.replies = s.replies ++ [.result r]) :
    ∃ u, body (startCommand s) = .ok r u ∧ t = endOnReturn (phaseAfter i.name s.phase) r u := by
  cases ha : admission i ch s with
  | some reason =>
    rw [command_refused ha] at h
    cases h
    cases List.append_inj_right' hr rfl
  | none =>
    rw [command_admitted ha] at h
    cases hb : body (startCommand s) with
    | err e u =>
      rw [hb] at h
      cases h
      cases List.append_inj_right' hr rfl
    | ok q u =>
      rw [hb] at h
      cases h
      cases List.append_inj_right' hr rfl
      exact ⟨u, rfl, rfl⟩

/-- The rule of a SET_CONFIG that completes has completed, and its trace is the one the command leaves. -/
theorem exec_setConfig_returned {s t : State} {rc : RadioConfig} (h : exec (.setConfig rc) s = .next t)
    (hr : t.replies = s.replies ++ [.result .done]) :
    ∃ u, setConfig rc (startCommand s) = .ok () u ∧ t.trace = u.trace := by
  obtain ⟨u, hbody, rfl⟩ := command_returned h hr
  obtain ⟨_, v, hrule, hv⟩ := Res.bind_eq_ok hbody
  cases hv
  exact ⟨u, hrule, rfl⟩

/-! ## The obligations -/

/-- Settles O32: the value fits exactly up to the bound, the first check of SET_CONFIG refuses what does not, and a rule that
completes has sent the value. -/
theorem carrierValue : Obligations.CarrierValue := by
  refine ⟨roundDiv_fstep_eq_floor, frfValue_lt_iff, fun s rc hp hwf hbig => ?_, div_fstep_ne_half,
    fun s t rc es hx ht hr => ?_, rfl⟩
  · exact exec_setConfig_refused hp hwf (setConfigRefusal_carrier s.cfg hbig)
  · obtain ⟨u, hrule, hu⟩ := exec_setConfig_returned hx hr
    obtain ⟨sentFrf, _, _⟩ := setConfig_ok hrule
    exact sentFrf.mem (hu.symm.trans ht)

/-- Settles O33: as for the carrier frequency, for a positive bit rate under consistent parameters. -/
theorem bitRateValue : Obligations.BitRateValue := by
  refine ⟨fun b hb => roundDiv_eq_floor fxosc hb, fun b hb => brValue_lt_iff hb, fun s rc hp hok hwf hpos hsmall => ?_,
    fun b hb => ?_, fun s t rc es hx ht hr hpos => ?_, fun b hb => fxosc_tie_of_mem hb, by decide⟩
  · exact exec_setConfig_refused hp hwf (setConfigRefusal_bitRate hok hpos hsmall)
  · rw [brValue_eq_zero hb]
    exact ⟨rfl, rfl⟩
  · obtain ⟨u, hrule, hu⟩ := exec_setConfig_returned hx hr
    obtain ⟨_, sentBitRate, _⟩ := setConfig_ok hrule
    exact (sentBitRate hpos).mem (hu.symm.trans ht)

/-- Settles O34: as for the carrier frequency, for a deviation under consistent parameters; with bit rate 0 no check reads the
deviation. -/
theorem deviationValue : Obligations.DeviationValue := by
  refine ⟨roundDiv_fstep_eq_floor, fdValue_lt_iff, fun s rc hp hok hwf hpos hbig => ?_,
    fun c rc d hzero => setConfigRefusal_deviation_unused c hzero d, fun s t rc es hx ht hr hbr hfd => ?_, rfl⟩
  · exact exec_setConfig_refused hp hwf (setConfigRefusal_deviation hok hpos hbig)
  · obtain ⟨u, hrule, hu⟩ := exec_setConfig_returned hx hr
    obtain ⟨_, _, sentDeviation⟩ := setConfig_ok hrule
    exact (sentDeviation (usesDeviation_iff.2 ⟨hbr, hfd⟩)).mem (hu.symm.trans ht)

end Sys2Proof.Machine
end

section
/-! PROOF. R105 to R107: the bandwidth search walks its pairs by falling divisor, so the first pair whose bandwidth exceeds the
target is the one of smallest bandwidth that does. -/

namespace Sys2Proof.Machine

/-! ## The bandwidth of a pair and its divisor -/

/-- R105: the divisor of `FXOSC` in the bandwidth of a pair. -/
def bwDivisor (ook : Bool) (p : Nat × Nat) : Nat := p.1 * 2 ^ (p.2 + bwOffset ook)

theorem bandwidth_eq (ook : Bool) (p : Nat × Nat) : bandwidth ook p = 32000000 / (bwDivisor ook p : ℚ) := by
  simp [bandwidth, bwDivisor, bwOffset]

theorem bwDivisor_pos (ook : Bool) : ∀ p ∈ bwPairs, 0 < bwDivisor ook p := by
  cases ook <;> decide

/-- R106: along the search the divisor falls. -/
theorem bwPairs_pairwise_divisor (ook : Bool) : bwPairs.Pairwise fun p q => bwDivisor ook q < bwDivisor ook p := by
  cases ook <;> decide

/-- R107: the last pair of the search has the smallest divisor. -/
theorem bwDivisor_last_le (ook : Bool) : ∀ p ∈ bwPairs, bwDivisor ook (16, 0) ≤ bwDivisor ook p := by
  cases ook <;> decide

theorem bwPairs_pairwise_bandwidth (ook : Bool) : bwPairs.Pairwise fun p q => bandwidth ook p < bandwidth ook q := by
  refine (bwPairs_pairwise_divisor ook).imp_of_mem fun {p q} _ hq hdiv => ?_
  have hpos : (0 : ℚ) < bwDivisor ook q := by exact_mod_cast bwDivisor_pos ook q hq
  rw [bandwidth_eq, bandwidth_eq]
  exact div_lt_div_of_pos_left (by norm_num) hpos (by exact_mod_cast hdiv)

/-- R105: the comparison of the search, made on natural numbers, is the one of exact bandwidths. -/
theorem bwExceeds_iff {ook : Bool} {target : Nat} {p : Nat × Nat} (hp : p ∈ bwPairs) :
    bwExceeds (bwOffset ook) target p = true ↔ (target : ℚ) < bandwidth ook p := by
  have hpos : (0 : ℚ) < bwDivisor ook p := by exact_mod_cast bwDivisor_pos ook p hp
  rw [bwExceeds, decide_eq_true_iff, bandwidth_eq, lt_div_iff₀ hpos]
  exact_mod_cast Iff.rfl

/-! ## The first pair found -/

/-- In a list of rising values the first element found is the smallest of those that satisfy the test. -/
theorem find?_le_of_pairwise_lt {α : Type} {l : List α} {P : α → Bool} {f : α → ℚ} {p : α}
    (hl : l.Pairwise fun x y => f x < f y) (hfind : l.find? P = some p) {q : α} (hq : q ∈ l) (hP : P q = true) :
    f p ≤ f q := by
  obtain ⟨_, before, after, rfl, hbefore⟩ := List.find?_eq_some_iff_append.1 hfind
  have hrise := (List.pairwise_cons.1 (List.pairwise_append.1 hl).2.1).1
  rcases List.mem_append.1 hq with hq | hq
  · exact absurd hP (by simpa using hbefore q hq)
  · rcases List.mem_cons.1 hq with rfl | hq
    · exact le_rfl
    · exact (hrise q hq).le

/-- R107: nothing is found exactly when the last pair, the one of greatest bandwidth, does not exceed the target. -/
theorem bwSearch_eq_none_iff (fdev br : Nat) (ook : Bool) :
    bwSearch fdev br ook = none ↔ fxosc ≤ bwTarget fdev br * bwDivisor ook (16, 0) := by
  have hnot : ∀ p, bwExceeds (bwOffset ook) (bwTarget fdev br) p = true ↔
      ¬ fxosc ≤ bwTarget fdev br * bwDivisor ook p := fun p => by simp [bwExceeds, bwDivisor]
  rw [bwSearch, List.find?_eq_none]
  simp only [hnot, not_not]
  constructor
  · exact fun h => h (16, 0) (by decide)
  · exact fun h p hp => h.trans (Nat.mul_le_mul_left _ (bwDivisor_last_le ook p hp))

/-- R107: the bandwidth of the last pair is 250000 Hz for OOK and 500000 Hz otherwise. -/
theorem fxosc_eq_mul_bwDivisor_last (ook : Bool) : fxosc = (if ook then 250000 else 500000) * bwDivisor ook (16, 0) := by
  cases ook <;> rfl

/-- R106: no pair that exceeds the target has a smaller bandwidth than the pair found. -/
theorem bwSearch_le {fdev br : Nat} {ook : Bool} {p q : Nat × Nat} (hfind : bwSearch fdev br ook = some p)
    (hq : q ∈ bwPairs) (hexc : ((bwTarget fdev br : Nat) : ℚ) < bandwidth ook q) : bandwidth ook p ≤ bandwidth ook q :=
  find?_le_of_pairwise_lt (bwPairs_pairwise_bandwidth ook) hfind hq ((bwExceeds_iff hq).2 hexc)

/-- R106: a pair earlier in the order has a smaller bandwidth than the pair found, so it does not exceed the target. -/
theorem bandwidth_le_target_of_before {fdev br : Nat} {ook : Bool} {p q : Nat × Nat} {before after : List (Nat × Nat)}
    (hfind : bwSearch fdev br ook = some p) (hsplit : bwPairs = before ++ p :: after) (hq : q ∈ before) :
    bandwidth ook q ≤ ((bwTarget fdev br : Nat) : ℚ) := by
  have hpairs := bwPairs_pairwise_bandwidth ook
  rw [hsplit] at hpairs
  have hlt : bandwidth ook q < bandwidth ook p := (List.pairwise_append.1 hpairs).2.2 q hq p List.mem_cons_self
  have hmem : q ∈ bwPairs := by
    rw [hsplit]
    exact List.mem_append_left _ hq
  exact le_of_not_gt fun hexc => (bwSearch_le hfind hmem hexc).not_gt hlt

/-- Settles O35: the pair found exceeds the target, and it is the first of a list of rising bandwidths that does. -/
theorem bandwidthSearchIsSmallest : Obligations.BandwidthSearchIsSmallest := by
  refine ⟨rfl, bwPairs_pairwise_bandwidth, fun fdev br ook p hfind => ?_, fun fdev br ook => ?_⟩
  · have hp : p ∈ bwPairs := List.mem_of_find?_eq_some hfind
    exact ⟨hp, (bwExceeds_iff hp).1 (List.find?_some hfind), fun q hq hexc => bwSearch_le hfind hq hexc,
      fun before after hsplit q hq => bandwidth_le_target_of_before hfind hsplit hq⟩
  · have hpos : 0 < bwDivisor ook (16, 0) := bwDivisor_pos ook (16, 0) (by decide)
    rw [bwSearch_eq_none_iff, fxosc_eq_mul_bwDivisor_last ook]
    exact Nat.mul_le_mul_right_iff hpos

end Sys2Proof.Machine
end

section
/-! PROOF. The EV1527 codec: what the encoder reads of a code, what EV_DECODE does with one byte, and that the decoder's value
of a frame is the code it was made of. -/

namespace Sys2Proof.Machine

/-! ## The data bytes and their value (R117, R121) -/

@[simp] theorem highNibble_nibbles (hi lo : BitVec 4) : highNibble (nibbles hi lo) = hi :=
  BitVec.extractLsb'_append_eq_left

@[simp] theorem lowNibble_nibbles (hi lo : BitVec 4) : lowNibble (nibbles hi lo) = lo :=
  BitVec.extractLsb'_append_eq_right

theorem evNibble_beq_one (bit : Bool) : (evNibble bit == 0xE) = bit := by cases bit <;> rfl

theorem evNibble_beq_zero (bit : Bool) : (evNibble bit == 0x8) = !bit := by cases bit <;> rfl

/-- R76, R80: the encoder makes data bytes only. -/
theorem evByteOk_evDataByte (code : BitVec 32) (k : Nat) : evByteOk (evDataByte code k) = true := by
  simp only [evByteOk, evDataByte, highNibble_nibbles, lowNibble_nibbles, evNibble_beq_zero, evNibble_beq_one,
    Bool.not_or_self, Bool.and_self]

theorem evByteOk_of_mem_evData {code : BitVec 32} {b : Byte} (h : b ∈ evData code) : evByteOk b = true := by
  obtain ⟨k, -, rfl⟩ := List.mem_map.1 h
  exact evByteOk_evDataByte code k

/-- R121: a byte of the encoder shifts in the two code bits it was made of. -/
theorem evShiftByte_evDataByte (v : Nat) (code : BitVec 32) (k : Nat) :
    evShiftByte v (evDataByte code k) = shiftIn (shiftIn v (code.getLsbD (23 - 2 * k))) (code.getLsbD (22 - 2 * k)) := by
  simp only [evShiftByte, evDataByte, highNibble_nibbles, lowNibble_nibbles, evNibble_beq_one]

/-- Shifting bit `k` of `x` into the `m` bits above it gives the `m + 1` bits from `k` up. -/
theorem shiftIn_testBit (x k m : Nat) : shiftIn ((x >>> (k + 1)) % 2 ^ m) (x.testBit k) = (x >>> k) % 2 ^ (m + 1) := by
  have hbit : (x.testBit k).toNat = x >>> k % 2 := by rw [Nat.toNat_testBit, Nat.shiftRight_eq_div_pow]
  rw [shiftIn, hbit, Nat.shiftRight_succ, Nat.pow_succ', Nat.mod_mul, Nat.add_comm]

/-- The first `n` data bytes hold the code bits from 23 down to `24 - 2n`. -/
theorem evValue_firstBytes (code : BitVec 32) {n : Nat} (hn : n ≤ 12) :
    evValue ((List.range n).map (evDataByte code)) = (code.toNat >>> (24 - 2 * n)) % 2 ^ (2 * n) := by
  induction n with
  | zero => simp [evValue, Nat.mod_one]
  | succ n ih =>
    have hsnoc : evValue ((List.range (n + 1)).map (evDataByte code)) =
        evShiftByte (evValue ((List.range n).map (evDataByte code))) (evDataByte code n) := by
      simp [evValue, List.range_succ]
    have hhi : 24 - 2 * n = 23 - 2 * n + 1 := by omega
    have hlo : 23 - 2 * n = 22 - 2 * n + 1 := by omega
    calc evValue ((List.range (n + 1)).map (evDataByte code))
      _ = shiftIn (shiftIn ((code.toNat >>> (24 - 2 * n)) % 2 ^ (2 * n)) (code.getLsbD (23 - 2 * n)))
            (code.getLsbD (22 - 2 * n)) := by rw [hsnoc, ih (by omega), evShiftByte_evDataByte]
      _ = shiftIn ((code.toNat >>> (23 - 2 * n)) % 2 ^ (2 * n + 1)) (code.getLsbD (22 - 2 * n)) := by
            rw [hhi]
            exact congrArg (shiftIn · _) (shiftIn_testBit ..)
      _ = (code.toNat >>> (22 - 2 * n)) % 2 ^ (2 * n + 1 + 1) := by
            rw [hlo]
            exact shiftIn_testBit ..
      _ = (code.toNat >>> (24 - 2 * (n + 1))) % 2 ^ (2 * (n + 1)) := by rw [Nat.mul_succ, Nat.sub_add_eq, Nat.sub_right_comm]

/-- The value of the encoder's frame is bits 23 to 0 of the code. -/
theorem evValue_evData (code : BitVec 32) : evValue (evData code) = code.toNat % 2 ^ 24 :=
  evValue_firstBytes code le_rfl

/-! ## What the encoder reads (R118) -/

theorem evDataByte_congr {c d : BitVec 32} (h : ∀ k, k < 24 → c.getLsbD k = d.getLsbD k) (k : Nat) :
    evDataByte c k = evDataByte d k := by
  rw [evDataByte, evDataByte, h (23 - 2 * k) (by omega), h (22 - 2 * k) (by omega)]

theorem evDataByte_of_zero_bits {code : BitVec 32} {k : Nat} (hhi : code.getLsbD (23 - 2 * k) = false)
    (hlo : code.getLsbD (22 - 2 * k) = false) : evDataByte code k = 0x88 := by
  rw [evDataByte, hhi, hlo]
  rfl

/-- Settles O45: the payload determines its value, which is bits 23 to 0 of the code, and each of its bytes reads two of these
bits; under 2^20 bits 23 to 20 are 0. -/
theorem evEncodeReadsTwentyFourBits : Obligations.EvEncodeReadsTwentyFourBits := by
  refine ⟨fun c d => ⟨fun h k hk => ?determined, fun h => ?read⟩, fun c hc => ?leading⟩
  case determined =>
    have hdata : evData c = evData d := List.append_cancel_right h
    have hmod : c.toNat % 2 ^ 24 = d.toNat % 2 ^ 24 := by rw [← evValue_evData, hdata, evValue_evData]
    have hbit := congrArg (Nat.testBit · k) hmod
    simp only [Nat.testBit_mod_two_pow, hk, decide_true, Bool.true_and] at hbit
    exact hbit
  case read =>
    have hbytes : evDataByte c = evDataByte d := funext (evDataByte_congr h)
    rw [evPayload, evPayload, evData, evData, hbytes]
  case leading =>
    have hzero : ∀ k, 20 ≤ k → c.getLsbD k = false := fun k hk => getLsbD_of_toNat_lt_two_pow hc hk
    have htake : (evPayload c).take 2 = [evDataByte c 0, evDataByte c 1] := rfl
    rw [htake, evDataByte_of_zero_bits (hzero _ (by decide)) (hzero _ (by decide)),
      evDataByte_of_zero_bits (hzero _ (by decide)) (hzero _ (by decide))]

/-! ## EV_DECODE of one byte (R121) -/

/-- A decoder command whose checks pass records its result, its accumulation and its time, and touches nothing else. -/
theorem exec_evDecode {s : State} {b : Byte} {t : Nat} (hp : CodecPhase s) (ht : t < 2 ^ 64)
    (horder : timeOrderRefusal s.evLast t = none) :
    exec (.evDecode b t) s = .next { s with
      evAcc := (evDecodeStep s.cfg.evDecodeWidth s.evAcc s.evLast b t).2
      evLast := some t
      stepIdx := 0
      replies := s.replies ++ [.result (.decoded (evDecodeStep s.cfg.evDecodeWidth s.evAcc s.evLast b t).1)] } := by
  have hadm : admission (.evDecode b t) (timeOrderRefusal s.evLast t) s = none :=
    admission_eq_none.2 ⟨hp.imp_right fun hu => ⟨hu, rfl⟩, decide_eq_true ht, horder⟩
  exact command_admitted hadm

/-- The byte that `t` brings is in order and meets the accumulation of `s` as it is: no refusal, nothing discarded. -/
def EvInTime (s : State) (t : Nat) : Prop :=
  timeOrderRefusal s.evLast t = none ∧ accAt (some tEvDecodeTimeout) s.evAcc s.evLast t = s.evAcc

/-- R121: two bytes in order with a gap that discards nothing. -/
def EvGapOk (u t : Nat) : Prop := u ≤ t ∧ t - u ≤ tEvDecodeTimeout

theorem evInTime_of_gap {s : State} {u t : Nat} (hlast : s.evLast = some u) (hgap : EvGapOk u t) : EvInTime s t := by
  rw [EvInTime, hlast]
  exact ⟨check_eq_none.2 (decide_eq_true hgap.1), if_neg (Nat.not_lt.2 hgap.2)⟩

/-- An empty decoder has nothing to discard. -/
theorem evInTime_of_empty {s : State} {t : Nat} (hacc : s.evAcc = []) (horder : ∀ u ∈ s.evLast, u ≤ t) : EvInTime s t := by
  rw [EvInTime, hacc]
  cases hlast : s.evLast with
  | none => exact ⟨rfl, rfl⟩
  | some u => exact ⟨check_eq_none.2 (decide_eq_true (horder u hlast)), ite_self _⟩

theorem evDecodeStep_partial {width : DecodeWidth} {acc : List Byte} {last : Option Nat} {b : Byte} {t : Nat}
    (hkept : accAt (some tEvDecodeTimeout) acc last t = acc) (hb : evByteOk b = true) (hlen : acc.length < 11) :
    evDecodeStep width acc last b t = (none, acc ++ [b]) := by
  have hshort : acc.length + 1 < evFrameBytes := Nat.succ_lt_succ hlen
  simp [evDecodeStep, hkept, hb, hshort]

theorem evDecodeStep_complete {width : DecodeWidth} {acc : List Byte} {last : Option Nat} {b : Byte} {t : Nat}
    (hkept : accAt (some tEvDecodeTimeout) acc last t = acc) (hb : evByteOk b = true) (hlen : acc.length = 11) :
    evDecodeStep width acc last b t = (some (evValue (acc ++ [b]) % 2 ^ decodeBits width), []) := by
  simp [evDecodeStep, hkept, hb, hlen, evFrameBytes]

/-! ## The round trip (R123) -/

theorem feedEv_cons {p : Byte × Nat} {s t : State} (h : exec (.evDecode p.1 p.2) s = .next t) (ps : List (Byte × Nat)) :
    feedEv (p :: ps) s = feedEv ps t := by
  rw [feedEv, h]

/-- Data bytes that fill the accumulation, each in time after the one before: every byte but the last gives an empty result,
the last one the value of the frame, and the decoder is empty again. -/
theorem feedEv_frame {s : State} {b : Byte} {t : Nat} {ps : List (Byte × Nat)} (hp : CodecPhase s) (hstart : EvInTime s t)
    (hcount : s.evAcc.length + ps.length = 11) (hbytes : ∀ p ∈ (b, t) :: ps, evByteOk p.1 = true ∧ p.2 < 2 ^ 64)
    (hchain : (t :: ps.map Prod.snd).IsChain EvGapOk) :
    ∃ u, feedEv ((b, t) :: ps) s = .next u ∧ u.evAcc = [] ∧
      u.replies = s.replies ++ List.replicate ps.length (.result (.decoded none)) ++
        [.result (.decoded (some (evValue (s.evAcc ++ b :: ps.map Prod.fst) % 2 ^ decodeBits s.cfg.evDecodeWidth)))] := by
  induction ps generalizing s b t with
  | nil =>
    obtain ⟨horder, hkept⟩ := hstart
    obtain ⟨hb, ht⟩ := hbytes _ List.mem_cons_self
    have hrun := exec_evDecode hp ht horder (b := b)
    rw [evDecodeStep_complete hkept hb hcount] at hrun
    exact ⟨_, feedEv_cons hrun [], rfl, by simp⟩
  | cons q ps ih =>
    obtain ⟨horder, hkept⟩ := hstart
    obtain ⟨⟨hb, ht⟩, hrest⟩ := List.forall_mem_cons.1 hbytes
    obtain ⟨hgap, htail⟩ := List.isChain_cons_cons.1 hchain
    rw [List.length_cons] at hcount
    have hrun := exec_evDecode hp ht horder (b := b)
    rw [evDecodeStep_partial hkept hb (by omega)] at hrun
    rw [feedEv_cons hrun]
    obtain ⟨u, hfeed, hempty, hreplies⟩ := ih (s := { s with
      evAcc := s.evAcc ++ [b], evLast := some t, stepIdx := 0, replies := s.replies ++ [.result (.decoded none)] })
      hp (evInTime_of_gap rfl hgap) (by simp; omega) hrest htail
    exact ⟨u, hfeed, hempty, by simp [hreplies, List.replicate_succ]⟩

/-- R122, R123: the decoder keeps every bit of a code below 2^20, and with width 24 of one below 2^24. -/
theorem mod_decodeBits {width : DecodeWidth} {v : Nat} (h : v < 2 ^ 20 ∨ width = .w24 ∧ v < 2 ^ 24) :
    v % 2 ^ 24 % 2 ^ decodeBits width = v := by
  rcases h with hv | ⟨rfl, hv⟩
  · cases width <;> simp only [decodeBits] <;> omega
  · simp only [decodeBits]
    omega

/-- Settles O49: the data bytes fill the empty decoder, and their value is the code. -/
theorem evRoundTrip : Obligations.EvRoundTrip := by
  intro s u code pre payload times hp hexec hreply hcode hacc hlen htimes hlast hchain
  obtain ⟨-, rfl⟩ : pre = evPreamble ∧ payload = evPayload code := by
    injection (exec_evEncode hp code).symm.trans hexec with hu
    simpa [← hu, eq_comm] using hreply
  have hdata : (evPayload code).dropLast = evData code := List.dropLast_concat
  have hfst : ((evData code).zip times).map Prod.fst = evData code :=
    List.map_fst_zip (by rw [evData_length, hlen])
  have hsnd : ((evData code).zip times).map Prod.snd = times := List.map_snd_zip (by rw [evData_length, hlen])
  have hbytes : ∀ p ∈ (evData code).zip times, evByteOk p.1 = true ∧ p.2 < 2 ^ 64 := fun p hmem =>
    ⟨evByteOk_of_mem_evData (List.of_mem_zip hmem).1, htimes _ (List.of_mem_zip hmem).2⟩
  rw [hdata]
  generalize (evData code).zip times = ps at hfst hsnd hbytes ⊢
  obtain _ | ⟨⟨b, t⟩, ps⟩ := ps
  · exact absurd (congrArg List.length hsnd) (by simp [hlen])
  rw [List.map_cons] at hfst hsnd
  subst hsnd
  have hcount : ps.length = 11 := by simpa using hlen
  have hstart : EvInTime s t := evInTime_of_empty hacc fun a ha => hlast a ha t List.mem_cons_self
  obtain ⟨w, hfeed, hempty, hreplies⟩ := feedEv_frame hp hstart (by simp [hacc, hcount]) hbytes hchain
  rw [hacc, List.nil_append, hfst, evValue_evData, mod_decodeBits hcode, hcount] at hreplies
  exact ⟨w, hfeed, hempty, hreplies⟩

end Sys2Proof.Machine
end

section
/-! PROOF. The LightStrip codec: what LS_DECODE does with one byte, that the decoder's value of a frame is the code after the
marker step, and the brightness mapping. -/

namespace Sys2Proof.Machine

/-! ## The data bytes and their value (R127, R132) -/

theorem lsNibble_beq_one (bit : Bool) : (lsNibble bit == 0x7) = bit := by cases bit <;> rfl

theorem lsNibble_beq_zero (bit : Bool) : (lsNibble bit == 0x4) = !bit := by cases bit <;> rfl

theorem lsNibble_ne_empty (bit : Bool) : lsNibble bit ≠ 0x0 := by cases bit <;> decide

/-- R128: the last data byte has a high nibble only, of code bit 0. -/
theorem lsDataByte_last (c : BitVec 25) : lsDataByte c 12 = nibbles (lsNibble (c.getLsbD 0)) 0x0 := rfl

/-- The encoder makes pairs of bit nibbles, and a last byte whose low nibble is 0. -/
theorem lsByteOk_nibbles (hi : Bool) {lo : BitVec 4} (hlo : lo = 0x0 ∨ ∃ bit, lo = lsNibble bit) :
    lsByteOk (nibbles (lsNibble hi) lo) = true := by
  have hlow : (lo == 0x0 || lo == 0x4 || lo == 0x7) = true := by
    rcases hlo with rfl | ⟨bit, rfl⟩
    · rfl
    · rw [Bool.or_assoc, lsNibble_beq_zero, lsNibble_beq_one, Bool.not_or_self, Bool.or_true]
  rw [lsByteOk, highNibble_nibbles, lowNibble_nibbles, lsNibble_beq_zero, lsNibble_beq_one, Bool.not_or_self, hlow,
    Bool.and_self]

/-- R78, R80: the encoder makes data bytes only. -/
theorem lsByteOk_lsDataByte (c : BitVec 25) (k : Nat) : lsByteOk (lsDataByte c k) = true := by
  refine lsByteOk_nibbles _ ?_
  split
  · exact .inr ⟨_, rfl⟩
  · exact .inl rfl

theorem lsByteOk_of_mem_lsData {code : BitVec 32} {st : Option LsState} {b : Byte} (h : b ∈ lsData code st) :
    lsByteOk b = true := by
  obtain ⟨k, -, rfl⟩ := List.mem_map.1 h
  exact lsByteOk_lsDataByte _ k

/-- R132: a data byte before the last shifts in the two code bits it was made of. -/
theorem lsShiftByte_lsDataByte (v : Nat) (c : BitVec 25) {k : Nat} (hk : k < 12) :
    lsShiftByte v (lsDataByte c k) = shiftIn (shiftIn v (c.getLsbD (24 - 2 * k))) (c.getLsbD (23 - 2 * k)) := by
  simp only [lsShiftByte, lsDataByte_of_lt c hk, highNibble_nibbles, lowNibble_nibbles, lsNibble_beq_one,
    lsNibble_ne_empty, if_false]

/-- R132: the last data byte shifts in code bit 0 alone. -/
theorem lsShiftByte_lsDataByte_last (v : Nat) (c : BitVec 25) :
    lsShiftByte v (lsDataByte c 12) = shiftIn v (c.getLsbD 0) := by
  simp only [lsShiftByte, lsDataByte_last, highNibble_nibbles, lowNibble_nibbles, lsNibble_beq_one, if_true]

/-- Each byte shifts its bits into the value of the bytes before it. -/
theorem lsValue_firstBytes_succ (c : BitVec 25) (n : Nat) :
    lsValue ((List.range (n + 1)).map (lsDataByte c)) =
      lsShiftByte (lsValue ((List.range n).map (lsDataByte c))) (lsDataByte c n) := by
  simp [lsValue, List.range_succ]

/-- The first `n` data bytes, without the last one, hold the code bits from 24 down to `25 - 2n`. -/
theorem lsValue_firstBytes (c : BitVec 25) {n : Nat} (hn : n ≤ 12) :
    lsValue ((List.range n).map (lsDataByte c)) = (c.toNat >>> (25 - 2 * n)) % 2 ^ (2 * n) := by
  induction n with
  | zero => simp [lsValue, Nat.mod_one]
  | succ n ih =>
    have hhi : 25 - 2 * n = 24 - 2 * n + 1 := by omega
    have hlo : 24 - 2 * n = 23 - 2 * n + 1 := by omega
    have hend : 23 - 2 * n = 25 - 2 * (n + 1) := by omega
    have hfirst : shiftIn (c.toNat >>> (25 - 2 * n) % 2 ^ (2 * n)) (c.getLsbD (24 - 2 * n)) =
        c.toNat >>> (24 - 2 * n) % 2 ^ (2 * n + 1) := by
      rw [hhi]
      exact shiftIn_testBit ..
    have hsecond : shiftIn (c.toNat >>> (24 - 2 * n) % 2 ^ (2 * n + 1)) (c.getLsbD (23 - 2 * n)) =
        c.toNat >>> (23 - 2 * n) % 2 ^ (2 * n + 1 + 1) := by
      rw [hlo]
      exact shiftIn_testBit ..
    rw [lsValue_firstBytes_succ, ih (by omega), lsShiftByte_lsDataByte _ c hn, hfirst, hsecond, hend]
    rfl

/-- The value of the encoder's frame is the code after the marker step. -/
theorem lsValue_lsData (code : BitVec 32) (st : Option LsState) : lsValue (lsData code st) = (lsMarker code st).toNat := by
  have hlast : shiftIn ((lsMarker code st).toNat >>> 1 % 2 ^ 24) ((lsMarker code st).getLsbD 0) =
      (lsMarker code st).toNat >>> 0 % 2 ^ 25 := shiftIn_testBit ..
  have hfirst := lsValue_firstBytes (lsMarker code st) (n := 12) le_rfl
  have hsucc := lsValue_firstBytes_succ (lsMarker code st) 12
  rw [hfirst, lsShiftByte_lsDataByte_last] at hsucc
  exact (hsucc.trans hlast).trans (Nat.mod_eq_of_lt (lsMarker code st).isLt)

/-! ## LS_DECODE of one byte (R132) -/

/-- The state after LS_DECODE took a byte at `t`: the accumulation, the time and the result it leaves. -/
def State.lsTaken (s : State) (acc : List Byte) (t : Nat) (v : Option Nat) : State :=
  { s with lsAcc := acc, lsLast := some t, stepIdx := 0, replies := s.replies ++ [.result (.decoded v)] }

@[simp] theorem State.lsTaken_lsAcc (s : State) (acc : List Byte) (t : Nat) (v : Option Nat) :
    (s.lsTaken acc t v).lsAcc = acc := rfl

@[simp] theorem State.lsTaken_replies (s : State) (acc : List Byte) (t : Nat) (v : Option Nat) :
    (s.lsTaken acc t v).replies = s.replies ++ [.result (.decoded v)] := rfl

/-- A decoder command whose checks pass records its result, its accumulation and its time, and touches nothing else. -/
theorem exec_lsDecode {s : State} {b : Byte} {t : Nat} (hp : CodecPhase s) (ht : t < 2 ^ 64)
    (horder : timeOrderRefusal s.lsLast t = none) :
    exec (.lsDecode b t) s = .next (s.lsTaken (lsDecodeStep s.cfg.lsDecodeTimeout s.lsAcc s.lsLast b t).2 t
      (lsDecodeStep s.cfg.lsDecodeTimeout s.lsAcc s.lsLast b t).1) := by
  have hadm : admission (.lsDecode b t) (timeOrderRefusal s.lsLast t) s = none :=
    admission_eq_none.2 ⟨hp.imp_right fun hu => ⟨hu, rfl⟩, decide_eq_true ht, horder⟩
  exact command_admitted hadm

/-- The byte that `t` brings is in order and meets the accumulation of `s` as it is: no refusal, nothing discarded. -/
def LsInTime (s : State) (t : Nat) : Prop :=
  timeOrderRefusal s.lsLast t = none ∧ accAt s.cfg.lsDecodeTimeout s.lsAcc s.lsLast t = s.lsAcc

/-- R132, R133: two bytes in order, with a gap that discards nothing where `LS_DECODE_TIMEOUT` is set. -/
def LsGapOk (limit : Option Nat) (u t : Nat) : Prop := u ≤ t ∧ ∀ l ∈ limit, t - u ≤ l

theorem accAt_of_gap {limit : Option Nat} {u t : Nat} (hgap : LsGapOk limit u t) (acc : List Byte) :
    accAt limit acc (some u) t = acc := by
  obtain ⟨_, hlimit⟩ := hgap
  cases limit with
  | none => rfl
  | some l => exact if_neg (Nat.not_lt.2 (hlimit l rfl))

/-- An empty decoder has nothing to discard. -/
theorem accAt_nil (limit last : Option Nat) (t : Nat) : accAt limit [] last t = [] := by
  cases limit with
  | none => rfl
  | some l =>
    cases last with
    | none => rfl
    | some u => exact ite_self _

theorem timeOrderRefusal_eq_none {last : Option Nat} {t : Nat} (horder : ∀ u ∈ last, u ≤ t) :
    timeOrderRefusal last t = none := by
  cases last with
  | none => rfl
  | some u => exact check_eq_none.2 (decide_eq_true (horder u rfl))

theorem lsInTime_of_gap {s : State} {u t : Nat} (hlast : s.lsLast = some u) (hgap : LsGapOk s.cfg.lsDecodeTimeout u t) :
    LsInTime s t := by
  rw [LsInTime, hlast]
  exact ⟨check_eq_none.2 (decide_eq_true hgap.1), accAt_of_gap hgap s.lsAcc⟩

theorem lsInTime_of_empty {s : State} {t : Nat} (hacc : s.lsAcc = []) (horder : ∀ u ∈ s.lsLast, u ≤ t) : LsInTime s t := by
  rw [LsInTime, hacc]
  exact ⟨timeOrderRefusal_eq_none horder, accAt_nil _ _ t⟩

theorem lsDecodeStep_partial {limit : Option Nat} {acc : List Byte} {last : Option Nat} {b : Byte} {t : Nat}
    (hkept : accAt limit acc last t = acc) (hb : lsByteOk b = true) (hlen : acc.length < 12) :
    lsDecodeStep limit acc last b t = (none, acc ++ [b]) := by
  have hshort : acc.length + 1 < lsFrameBytes := Nat.succ_lt_succ hlen
  simp [lsDecodeStep, hkept, hb, hshort]

theorem lsDecodeStep_complete {limit : Option Nat} {acc : List Byte} {last : Option Nat} {b : Byte} {t : Nat}
    (hkept : accAt limit acc last t = acc) (hb : lsByteOk b = true) (hlen : acc.length = 12) :
    lsDecodeStep limit acc last b t = (some (lsValue (acc ++ [b])), []) := by
  simp [lsDecodeStep, hkept, hb, hlen, lsFrameBytes]

/-! ## The round trip (R134) -/

theorem feedLs_cons {p : Byte × Nat} {s t : State} (h : exec (.lsDecode p.1 p.2) s = .next t) (ps : List (Byte × Nat)) :
    feedLs (p :: ps) s = feedLs ps t := by
  rw [feedLs, h]

/-- A data byte in time before the frame is full joins the accumulation. -/
theorem feedLs_partial {s : State} {b : Byte} {t : Nat} (hp : CodecPhase s) (hstart : LsInTime s t)
    (hb : lsByteOk b = true) (ht : t < 2 ^ 64) (hlen : s.lsAcc.length < 12) (ps : List (Byte × Nat)) :
    feedLs ((b, t) :: ps) s = feedLs ps (s.lsTaken (s.lsAcc ++ [b]) t none) := by
  obtain ⟨horder, hkept⟩ := hstart
  rw [feedLs_cons (exec_lsDecode hp ht horder), lsDecodeStep_partial hkept hb hlen]

/-- The data byte in time that fills the frame gives its value and empties the decoder. -/
theorem feedLs_complete {s : State} {b : Byte} {t : Nat} (hp : CodecPhase s) (hstart : LsInTime s t)
    (hb : lsByteOk b = true) (ht : t < 2 ^ 64) (hlen : s.lsAcc.length = 12) (ps : List (Byte × Nat)) :
    feedLs ((b, t) :: ps) s = feedLs ps (s.lsTaken [] t (some (lsValue (s.lsAcc ++ [b])))) := by
  obtain ⟨horder, hkept⟩ := hstart
  rw [feedLs_cons (exec_lsDecode hp ht horder), lsDecodeStep_complete hkept hb hlen]

/-- Data bytes that fill the accumulation, each in time after the one before: every byte but the last gives an empty result,
the last one the value of the frame, and the decoder is empty again. -/
theorem feedLs_frame {s : State} {b : Byte} {t : Nat} {ps : List (Byte × Nat)} (hp : CodecPhase s) (hstart : LsInTime s t)
    (hcount : s.lsAcc.length + ps.length = 12) (hbytes : ∀ p ∈ (b, t) :: ps, lsByteOk p.1 = true ∧ p.2 < 2 ^ 64)
    (hchain : (t :: ps.map Prod.snd).IsChain (LsGapOk s.cfg.lsDecodeTimeout)) :
    ∃ u, feedLs ((b, t) :: ps) s = .next u ∧ u.lsAcc = [] ∧
      u.replies = s.replies ++ List.replicate ps.length (.result (.decoded none)) ++
        [.result (.decoded (some (lsValue (s.lsAcc ++ b :: ps.map Prod.fst))))] := by
  induction ps generalizing s b t with
  | nil =>
    obtain ⟨hb, ht⟩ := hbytes _ List.mem_cons_self
    exact ⟨_, feedLs_complete hp hstart hb ht hcount [], rfl, by simp⟩
  | cons q ps ih =>
    obtain ⟨⟨hb, ht⟩, hrest⟩ := List.forall_mem_cons.1 hbytes
    obtain ⟨hgap, htail⟩ := List.isChain_cons_cons.1 hchain
    rw [List.length_cons] at hcount
    rw [feedLs_partial hp hstart hb ht (by omega)]
    obtain ⟨u, hfeed, hempty, hreplies⟩ := ih (s := s.lsTaken (s.lsAcc ++ [b]) t none) hp (lsInTime_of_gap rfl hgap)
      (by simp; omega) hrest htail
    exact ⟨u, hfeed, hempty, by simp [hreplies, List.replicate_succ]⟩

theorem lsPayload_dropLast (code : BitVec 32) (st : Option LsState) : (lsPayload code st).dropLast = lsData code st :=
  List.dropLast_concat

/-- Bits 23 to 20 of the decoder's value tell the state (R134). -/
theorem lsMarker_nibble (code : BitVec 32) (st : Option LsState) :
    (lsMarker code st).extractLsb' 20 4 = (match st with | none => 0x0#4 | some .on => 0x4#4 | some .off => 0xA#4) := by
  rw [lsMarker_extractLsb']
  rcases st with _ | _ | _ <;> rfl

/-- Settles O53: the data bytes fill the empty decoder, and their value is the code after the marker step. -/
theorem lsRoundTrip : Obligations.LsRoundTrip := by
  intro s u code st pre payload times hp hexec hreply hacc hlen htimes hlast hchain
  obtain ⟨-, rfl⟩ : pre = lsPreamble s.cfg ∧ payload = lsPayload code st := by
    injection (exec_lsEncode hp code st).symm.trans hexec with hu
    simpa [← hu, eq_comm] using hreply
  have hfst : ((lsData code st).zip times).map Prod.fst = lsData code st :=
    List.map_fst_zip (by rw [lsData_length, hlen])
  have hsnd : ((lsData code st).zip times).map Prod.snd = times := List.map_snd_zip (by rw [lsData_length, hlen])
  have hbytes : ∀ p ∈ (lsData code st).zip times, lsByteOk p.1 = true ∧ p.2 < 2 ^ 64 := fun p hmem =>
    ⟨lsByteOk_of_mem_lsData (List.of_mem_zip hmem).1, htimes _ (List.of_mem_zip hmem).2⟩
  rw [lsPayload_dropLast]
  generalize (lsData code st).zip times = ps at hfst hsnd hbytes ⊢
  obtain _ | ⟨⟨b, t⟩, ps⟩ := ps
  · exact absurd (congrArg List.length hsnd) (by simp [hlen])
  rw [List.map_cons] at hfst hsnd
  subst hsnd
  have hcount : ps.length = 12 := by simpa using hlen
  have hstart : LsInTime s t := lsInTime_of_empty hacc fun a ha => hlast a ha t List.mem_cons_self
  obtain ⟨w, hfeed, hempty, hreplies⟩ := feedLs_frame hp hstart (by simp [hacc, hcount]) hbytes hchain
  rw [hacc, List.nil_append, hfst, lsValue_lsData, hcount] at hreplies
  exact ⟨w, lsMarker code st, hfeed, hempty, hreplies, rfl, lsMarker_getLsbD_kept code st (.inr rfl),
    fun k hk => lsMarker_getLsbD_kept code st (.inl hk), lsMarker_nibble code st⟩

/-! ## Brightness (R135) -/

theorem brightQuantity_eq_floor (pct : Nat) : brightQuantity pct = ⌊(0x1FF : ℚ) * pct / 100 + 1 / 2⌋₊ := by
  rw [brightQuantity, roundDiv_eq_floor _ (by decide)]
  push_cast
  rfl

/-- The quantity of a percentage has nine bits. -/
theorem brightQuantity_lt {pct : Nat} (h : pct ≤ 100) : brightQuantity pct < 2 ^ 9 := by
  rw [brightQuantity, roundDiv]
  omega

/-- A tie asks for `511 * pct = 100 * n + 50`, which of the percentages 50 alone meets, with `n = 255`. -/
theorem exists_bright_tie_iff {pct : Nat} (h : pct ≤ 100) :
    (∃ n : Nat, (0x1FF : ℚ) * pct / 100 = n + 1 / 2) ↔ pct = 50 := by
  have htie : ∀ n : Nat, (0x1FF : ℚ) * pct / 100 = n + 1 / 2 ↔ 511 * pct = 100 * n + 50 := fun n => by
    rw [div_eq_iff (by norm_num), add_mul, show (1 / 2 : ℚ) * 100 = 50 by norm_num, mul_comm (n : ℚ)]
    exact_mod_cast Iff.rfl
  simp only [htie]
  constructor
  · rintro ⟨n, hn⟩
    omega
  · rintro rfl
    exact ⟨255, rfl⟩

/-- A bit of the mapping is one of the low byte or the marker. -/
theorem brightBits_getLsbD (c : Config) (pct : Nat) {k : Nat} (hk : k < 32) :
    (brightBits c pct).getLsbD k = ((brightLow pct).getLsbD k ||
      decide (brightMark pct = c.brightMarker.setWhenBelow ∧ k = c.brightMarker.bit.val)) := by
  have hmarker : ((1 : BitVec 32) <<< c.brightMarker.bit.val).getLsbD k = decide (k = c.brightMarker.bit.val) := by
    refine (BitVec.getLsbD_twoPow c.brightMarker.bit.val k).trans ?_
    rw [decide_eq_true c.brightMarker.bit.isLt, Bool.true_and]
    exact decide_eq_decide.2 eq_comm
  rw [brightBits, BitVec.getLsbD_or, BitVec.getLsbD_setWidth, decide_eq_true hk, Bool.true_and]
  by_cases hmark : brightMark pct = c.brightMarker.setWhenBelow
  · rw [if_pos hmark, hmarker]
    simp [hmark]
  · simp [hmark]

/-- A marker above the low byte leaves the low byte alone. -/
theorem brightBits_low {c : Config} (pct : Nat) (hbit : 8 ≤ c.brightMarker.bit.val) :
    (brightBits c pct).setWidth 8 = brightLow pct := by
  refine BitVec.eq_of_getLsbD_eq fun k hk => ?_
  have hne : k ≠ c.brightMarker.bit.val := by omega
  rw [BitVec.getLsbD_setWidth, brightBits_getLsbD c pct (by omega)]
  simp [hk, hne]

/-- Above the low byte the marker's bit is the marker alone. -/
theorem brightBits_marker {c : Config} (pct : Nat) (hbit : 8 ≤ c.brightMarker.bit.val) :
    (brightBits c pct).getLsbD c.brightMarker.bit.val = true ↔ brightMark pct = c.brightMarker.setWhenBelow := by
  rw [brightBits_getLsbD c pct c.brightMarker.bit.isLt, BitVec.getLsbD_of_ge _ _ hbit]
  simp

/-- Settles O54: `brightQuantity` is R12's rounding, and low byte and marker do not meet from bit 8 up. -/
theorem brightnessMapping : Obligations.BrightnessMapping :=
  ⟨fun pct h => ⟨brightQuantity_eq_floor pct, brightQuantity_lt h, BitVec.toNat_ofNat .., decide_eq_true_iff,
      exists_bright_tie_iff h⟩,
    fun _ pct _ hbit => ⟨brightBits_low pct hbit, brightBits_marker pct hbit⟩, rfl⟩

end Sys2Proof.Machine
end

section
/-! PROOF. Admission and the port: what a step does with a word (R25, R141), and what every way of ending a command leaves of
the block's variables (R34). -/

namespace Sys2Proof.Machine

/-! ## Every command is admitted one way -/

/-- R141: every command runs through the one admission, with checks and a rule of its own. -/
theorem exec_eq_command (i : Instr) (s : State) : ∃ ch body, exec i s = command i ch body s := by
  cases i <;> exact ⟨_, _, rfl⟩

theorem exec_next (i : Instr) (s : State) : ∃ t, exec i s = .next t := by
  obtain ⟨ch, body, h⟩ := exec_eq_command i s
  exact ⟨_, h⟩

theorem exec_phase_refused {i : Instr} {s : State} {r : Reason} (h : phaseRefusal i.name s = some r) :
    exec i s = .next (refuse r s) := by
  obtain ⟨ch, body, hcommand⟩ := exec_eq_command i s
  rw [hcommand]
  exact command_refused (by rw [admission, h, firstRefusal_some_cons])

theorem exec_malformed {i : Instr} {s : State} (hphase : phaseRefusal i.name s = none) (hwf : i.wf = false) :
    exec i s = .next (refuse .badOperand s) := by
  obtain ⟨ch, body, hcommand⟩ := exec_eq_command i s
  have hops : check (operandChecks i) .badOperand = some .badOperand := check_eq_some.2 ⟨hwf, rfl⟩
  rw [hcommand]
  exact command_refused (by rw [admission, hphase, hops]; rfl)

theorem phaseRefusal_busy {n : CmdName} {s : State} (h : s.phase = .busy) : phaseRefusal n s = some .overlap := by
  simp [phaseRefusal, h]

theorem phaseRefusal_failed {n : CmdName} {s : State} (h : s.phase = .failed) : phaseRefusal n s = some .failed := by
  simp [phaseRefusal, h]

theorem phaseRefusal_uninit {n : CmdName} {s : State} (h : s.phase = .uninit) (hn : admittedUninit n = false) :
    phaseRefusal n s = some .notInit := by
  simp [phaseRefusal, h, hn]

/-- R141: the commands UNINIT admits are INIT and the four pure codec commands. -/
theorem admittedUninit_iff (n : CmdName) :
    admittedUninit n = true ↔ n ∈ [.init, .evEncode, .lsEncode, .evDecode, .lsDecode] := by
  cases n <;> decide

/-! ## Words on the port -/

theorem runWord_ok {w : List Byte} {i : Instr} (h : decode w = .ok i) (s : State) : runWord w s = exec i s := by
  rw [runWord, h]

theorem refuseMalformed_phase {n : CmdName} {s : State} {r : Reason} (h : phaseRefusal n s = some r) :
    refuseMalformed n s = .next (refuse r s) := by
  rw [refuseMalformed, h]

theorem refuseMalformed_admitted {n : CmdName} {s : State} (h : phaseRefusal n s = none) :
    refuseMalformed n s = .next (refuse .badOperand s) := by
  rw [refuseMalformed, h]

theorem runWord_badOperand {w : List Byte} {n : CmdName} (h : decode w = .badOperand n) (s : State) :
    runWord w s = refuseMalformed n s := by
  rw [runWord, h]

/-- A malformed word is refused, for its phase or for its operands. -/
theorem refuseMalformed_refuses (n : CmdName) (s : State) : ∃ r, refuseMalformed n s = .next (refuse r s) := by
  cases h : phaseRefusal n s with
  | none => exact ⟨_, refuseMalformed_admitted h⟩
  | some r => exact ⟨r, refuseMalformed_phase h⟩

/-- A word runs the command it spells, or it is refused. -/
theorem runWord_cases (w : List Byte) (s : State) :
    (∃ i, decode w = .ok i ∧ runWord w s = exec i s) ∨ ∃ r, runWord w s = .next (refuse r s) := by
  cases h : decode w with
  | ok i => exact .inl ⟨i, rfl, runWord_ok h s⟩
  | badOpcode => exact .inr ⟨.badOpcode, by rw [runWord, h]⟩
  | badOperand n =>
    obtain ⟨r, hr⟩ := refuseMalformed_refuses n s
    exact .inr ⟨r, (runWord_badOperand h s).trans hr⟩

/-- In a phase that refuses every command with `r`, every word is refused with `r`, or for its opcode. -/
theorem runWord_phase_refused {s : State} {r : Reason} (h : ∀ n, phaseRefusal n s = some r) (w : List Byte) :
    runWord w s = .next (refuse (if decode w = .badOpcode then .badOpcode else r) s) := by
  cases hw : decode w with
  | ok i => simpa using (runWord_ok hw s).trans (exec_phase_refused (h i.name))
  | badOpcode => simp [runWord, hw]
  | badOperand n => simpa using (runWord_badOperand hw s).trans (refuseMalformed_phase (h n))

/-- R25: an overlapping word is refused and changes nothing else. -/
theorem runOverlapped_eq (w : List Byte) (s : State) :
    runOverlapped w s = .next (refuse (if decode w = .badOpcode then .badOpcode else .overlap) s) := by
  rw [runOverlapped, runWord_phase_refused (fun n => phaseRefusal_busy rfl) w]
  rfl

theorem step_overlap {s : State} {w : List Byte} {rest : List HostCall} (h : s.port = .overlap w :: rest) :
    step s = .next (refuse (if decode w = .badOpcode then .badOpcode else .overlap) { s with port := rest }) := by
  rw [step, takeCall, h]
  exact runOverlapped_eq w _

theorem step_powerOn {s : State} {rest : List HostCall} (h : s.port = .powerOn :: rest) :
    step s = .next (powerOn { s with port := rest }) := by
  rw [step, takeCall, h]

theorem step_waits {s : State} (h : s.port = []) : step s = .next s := by
  rw [step, takeCall, h]

/-- What one step can do: wait, power on, run the command its word spells, or refuse its word. -/
inductive Stepped (s : State) : State → Prop
  | waits (h : s.port = []) : Stepped s s
  | powerOn (rest : List HostCall) (h : s.port = .powerOn :: rest) : Stepped s (powerOn { s with port := rest })
  | runs (w : List Byte) (rest : List HostCall) (i : Instr) {t : State} (h : s.port = .issue w :: rest)
      (run : exec i { s with port := rest } = .next t) : Stepped s t
  | refuses (w : List Byte) (rest : List HostCall) (r : Reason)
      (h : s.port = .issue w :: rest ∨ s.port = .overlap w :: rest) : Stepped s (refuse r { s with port := rest })

theorem step_cases {s t : State} (h : step s = .next t) : Stepped s t := by
  rcases hport : s.port with _ | ⟨w | w | _, rest⟩
  case nil =>
    cases (step_waits hport).symm.trans h
    exact .waits hport
  case issue =>
    have hrun := (step_issue hport).symm.trans h
    rcases runWord_cases w { s with port := rest } with ⟨i, _, hi⟩ | ⟨r, hr⟩
    · exact .runs w rest i hport (hi.symm.trans hrun)
    · cases hr.symm.trans hrun
      exact .refuses w rest r (.inl hport)
  case overlap =>
    cases (step_overlap hport).symm.trans h
    exact .refuses w rest _ (.inr hport)
  case powerOn =>
    cases (step_powerOn hport).symm.trans h
    exact .powerOn rest hport

/-! ## The invariant between commands -/

/-- What the invariant says of the lines, the decoders and the radio: all that does not depend on the phase. -/
structure Rest (s : State) : Prop where
  noXfer   : s.xferBusy = false
  nssHigh  : s.nssOut = .high
  resetLow : s.resetOut = .low
  evLen    : s.evAcc.length ≤ 11
  evBytes  : ∀ b ∈ s.evAcc, evByteOk b = true
  evTime   : s.evAcc ≠ [] → s.evLast ≠ none
  lsLen    : s.lsAcc.length ≤ 12
  lsBytes  : ∀ b ∈ s.lsAcc, lsByteOk b = true
  lsTime   : s.lsAcc ≠ [] → s.lsLast ≠ none
  memory   : Memory.wf s.radio.regs = true

theorem Inv.rest {s : State} (h : Inv s) : Rest s :=
  ⟨h.noXfer, h.nssHigh, h.resetLow, h.evLen, h.evBytes, h.evTime, h.lsLen, h.lsBytes, h.lsTime, h.memory⟩

theorem Rest.bus {s t : State} (h : Rest s) (hb : Bus s t) : Rest t where
  noXfer := hb.xferBusy.trans h.noXfer
  nssHigh := hb.nssHigh h.nssHigh
  resetLow := hb.frame.resetOut.trans h.resetLow
  evLen := by rw [hb.frame.evAcc]; exact h.evLen
  evBytes := by rw [hb.frame.evAcc]; exact h.evBytes
  evTime := by rw [hb.frame.evAcc, hb.frame.evLast]; exact h.evTime
  lsLen := by rw [hb.frame.lsAcc]; exact h.lsLen
  lsBytes := by rw [hb.frame.lsAcc]; exact h.lsBytes
  lsTime := by rw [hb.frame.lsAcc, hb.frame.lsLast]; exact h.lsTime
  memory := hb.memory_wf h.memory

theorem Rest.startCommand {s : State} (h : Rest s) : Rest (startCommand s) := { h with }

/-- INIT's pulse and clearing leave the lines idle and both decoders empty. -/
theorem Rest.resetPulse {s : State} (h : Rest s) : Rest (clearOnInit (resetPulse s)) where
  noXfer := h.noXfer
  nssHigh := h.nssHigh
  resetLow := rfl
  evLen := Nat.zero_le _
  evBytes := by simp
  evTime := fun hne => absurd rfl hne
  lsLen := Nat.zero_le _
  lsBytes := by simp
  lsTime := fun hne => absurd rfl hne
  memory := Radio.wf_afterReset h.memory

/-- The accumulation a decoder goes on with is the one it had, or none of it. -/
theorem accAt_eq_or (limit : Option Nat) (acc : List Byte) (last : Option Nat) (t : Nat) :
    accAt limit acc last t = acc ∨ accAt limit acc last t = [] := by
  rcases limit with _ | l
  · exact .inl rfl
  rcases last with _ | u
  · exact .inl rfl
  · simp only [accAt]
    split
    · exact .inr rfl
    · exact .inl rfl

theorem accAt_bytes {P : Byte → Prop} {limit : Option Nat} {acc : List Byte} {last : Option Nat} {t : Nat}
    (h : ∀ b ∈ acc, P b) : ∀ b ∈ accAt limit acc last t, P b := by
  rcases accAt_eq_or limit acc last t with hacc | hacc <;> rw [hacc]
  · exact h
  · simp

/-- R121: the accumulation EV_DECODE leaves is short of a frame and of data bytes only. -/
theorem evDecodeStep_acc {width : DecodeWidth} {acc : List Byte} {last : Option Nat} {b : Byte} {t : Nat}
    (h : ∀ x ∈ acc, evByteOk x = true) :
    (evDecodeStep width acc last b t).2.length ≤ 11 ∧ ∀ x ∈ (evDecodeStep width acc last b t).2, evByteOk x = true := by
  simp only [evDecodeStep]
  split
  · next hb =>
    split
    · next hlen => exact ⟨Nat.le_of_lt_succ hlen, List.forall_mem_append.2 ⟨accAt_bytes h, by simpa using hb⟩⟩
    · simp
  · simp

/-- R132: the accumulation LS_DECODE leaves is short of a frame and of data bytes only. -/
theorem lsDecodeStep_acc {limit : Option Nat} {acc : List Byte} {last : Option Nat} {b : Byte} {t : Nat}
    (h : ∀ x ∈ acc, lsByteOk x = true) :
    (lsDecodeStep limit acc last b t).2.length ≤ 12 ∧ ∀ x ∈ (lsDecodeStep limit acc last b t).2, lsByteOk x = true := by
  simp only [lsDecodeStep]
  split
  · next hb =>
    split
    · next hlen => exact ⟨Nat.le_of_lt_succ hlen, List.forall_mem_append.2 ⟨accAt_bytes h, by simpa using hb⟩⟩
    · simp
  · simp

theorem Rest.ran {i : Instr} {s t : State} (h : Rest s) (hran : Ran i s t) : Rest t := by
  cases i with
  | init => exact h.resetPulse.bus hran
  | evEncode | lsEncode => cases hran; exact h
  | evDecode b u =>
    cases hran
    obtain ⟨hlen, hbytes⟩ := evDecodeStep_acc (width := s.cfg.evDecodeWidth) (last := s.evLast) (b := b) (t := u) h.evBytes
    exact { h with evLen := hlen, evBytes := hbytes, evTime := fun _ => Option.some_ne_none u }
  | lsDecode b u =>
    cases hran
    obtain ⟨hlen, hbytes⟩ := lsDecodeStep_acc (limit := s.cfg.lsDecodeTimeout) (last := s.lsLast) (b := b) (t := u) h.lsBytes
    exact { h with lsLen := hlen, lsBytes := hbytes, lsTime := fun _ => Option.some_ne_none u }
  | regRead | regWrite | setMode | setConfig | setFraming | setHighPower | transmit | available | readByte | evSend
  | lsSend => exact h.bus hran

/-- No rule sets `fatal`, `refused`, the port or the replies. -/
theorem Ran.frame {i : Instr} {s t : State} (h : Ran i s t) :
    t.fatal = s.fatal ∧ t.refused = s.refused ∧ t.port = s.port ∧ t.replies = s.replies := by
  have ofBus : ∀ {s t : State}, Bus s t →
      t.fatal = s.fatal ∧ t.refused = s.refused ∧ t.port = s.port ∧ t.replies = s.replies :=
    fun hb => ⟨hb.frame.fatal, hb.frame.refused, hb.frame.port, hb.replies⟩
  cases i with
  | init => simpa [resetPulse] using ofBus (s := clearOnInit (resetPulse s)) (t := t) h
  | evEncode | lsEncode | evDecode | lsDecode => cases h; exact ⟨rfl, rfl, rfl, rfl⟩
  | regRead | regWrite | setMode | setConfig | setFraming | setHighPower | transmit | available | readByte | evSend
  | lsSend => exact ofBus h

/-- A command other than INIT that UNINIT admits leaves the mirror. -/
theorem Ran.modeMirror {i : Instr} {s t : State} (h : Ran i s t) (hadm : admittedUninit i.name = true) (hi : i ≠ .init) :
    t.modeMirror = s.modeMirror := by
  cases i with
  | init => exact absurd rfl hi
  | evEncode | lsEncode | evDecode | lsDecode => cases h; rfl
  | regRead | regWrite | setMode | setConfig | setFraming | setHighPower | transmit | available | readByte | evSend
  | lsSend => cases hadm

theorem Inv.port {s : State} (h : Inv s) (rest : List HostCall) : Inv { s with port := rest } := { h with }

theorem Inv.refuse {s : State} (h : Inv s) (r : Reason) : Inv (refuse r s) := { h with }

theorem Inv.powerOn {s : State} (h : Inv s) : Inv (powerOn s) := by
  constructor <;> simp [h.memory]

/-- An admitted command starts from a state without a fatal error. -/
theorem Inv.fatal_eq_none {s : State} (h : Inv s) (hp : s.phase ≠ .failed) : s.fatal = none :=
  not_ne_iff.1 fun hfatal => hp (h.failed.2 hfatal)

theorem phase_ne_of_admitted {n : CmdName} {s : State} (adm : s.phase = .ready ∨ s.phase = .uninit ∧ admittedUninit n = true) :
    s.phase ≠ .busy ∧ s.phase ≠ .failed := by
  rcases adm with hp | ⟨hp, _⟩ <;> simp [hp]

/-- The invariant holds after a command that neither failed nor left UNINIT with a mode in the mirror. -/
theorem Rest.inv {t : State} (h : Rest t) (hidx : t.stepIdx = 0) (hbusy : t.phase ≠ .busy) (hfailed : t.phase ≠ .failed)
    (hfatal : t.fatal = none) (hmirror : t.phase = .uninit → t.modeMirror = none) : Inv t :=
  { h with notBusy := hbusy, idxZero := hidx, failed := ⟨fun hp => absurd hp hfailed, fun hf => absurd hfatal hf⟩,
           fatalIs := .inl hfatal, mirror := hmirror }

/-- Of all errors an admitted command can raise with no transfer in flight, INIT's alone is fatal. -/
theorem mayRaise_iff {i : Instr} {e : CmdError} :
    MayRaise i e ↔ (i = .init ∧ ∃ v, e = .hardwareInit v) ∨ (i ≠ .init ∧ e.isFatal = false) := by
  cases i <;> simp [MayRaise]

/-- After a rule the mirror is UNKNOWN in UNINIT, since no command but INIT sets it there. -/
theorem Ran.mirror_uninit {i : Instr} {s t : State} (h : Inv s) (hran : Ran i (startCommand s) t) (hi : i ≠ .init)
    (adm : s.phase = .ready ∨ s.phase = .uninit ∧ admittedUninit i.name = true) (hp : s.phase = .uninit) :
    t.modeMirror = none := by
  rcases adm with hready | ⟨_, hadm⟩
  · rw [hp] at hready
    cases hready
  · exact (hran.modeMirror hadm hi).trans (h.mirror hp)

theorem Instr.name_eq_init {i : Instr} : i.name = .init ↔ i = .init := by
  cases i <;> simp [Instr.name]

theorem phaseAfter_of_ne_init {i : Instr} (hi : i ≠ .init) (p : Phase) : phaseAfter i.name p = p :=
  if_neg fun hn => hi (Instr.name_eq_init.1 hn)

theorem Inv.ended {i : Instr} {s t : State} (h : Inv s) (hend : Ended i s t) : Inv t := by
  cases hend with
  | refused r => exact h.refuse r
  | returned r u adm ran =>
    obtain ⟨hbusy, hfailed⟩ := phase_ne_of_admitted adm
    have hrest : Rest u := h.rest.startCommand.ran ran
    have hfatal : u.fatal = none := ran.frame.1.trans (h.fatal_eq_none hfailed)
    by_cases hi : i = .init
    · subst hi
      exact Rest.inv { hrest with } rfl Phase.noConfusion Phase.noConfusion hfatal Phase.noConfusion
    · have hmirror := ran.mirror_uninit h hi adm
      rw [phaseAfter_of_ne_init hi]
      exact Rest.inv { hrest with } rfl hbusy hfailed hfatal hmirror
  | error e u adm ran may =>
    obtain ⟨hbusy, hfailed⟩ := phase_ne_of_admitted adm
    have hrest : Rest u := h.rest.startCommand.ran ran
    have hfatal : u.fatal = none := ran.frame.1.trans (h.fatal_eq_none hfailed)
    rcases mayRaise_iff.1 (may h.noXfer) with ⟨_, v, rfl⟩ | ⟨hi, he⟩
    · exact { hrest with notBusy := Phase.noConfusion, idxZero := rfl, failed := by simp [CmdError.isFatal],
                         fatalIs := .inr rfl, mirror := Phase.noConfusion }
    · exact Rest.inv { hrest with } rfl (by simp [he, hbusy]) (by simp [he, hfailed]) (by simp [he, hfatal])
        (by simpa [he] using ran.mirror_uninit h hi adm)

/-- Settles O55: a word ends its command in one of three ways, each of which keeps the invariant; a power-on establishes it. -/
theorem invariantKept : Obligations.InvariantKept := by
  intro s t h hstep
  cases step_cases hstep with
  | waits => exact h
  | powerOn rest => exact (h.port rest).powerOn
  | runs w rest i _ run => exact (h.port rest).ended (exec_cases run)
  | refuses w rest r => exact (h.port rest).refuse r

end Sys2Proof.Machine
end

section
/-! PROOF. Command words (30_encoding.md section 4): the decoder reads back what the encoder writes, the encoder writes back what
the decoder read, and R83's checks are those the decoder and `Instr.wf` make. -/

namespace Sys2Proof.Machine

/-- Settles O1: command by command, the fields of each format are read back. -/
theorem decodeReadsBackEncode : Obligations.DecodeReadsBackEncode := by
  intro i h
  cases i with
  | regRead a => exact Laws.RoundTrip.regRead a h
  | regWrite a data => exact Laws.RoundTrip.regWrite a data h
  | init => exact Laws.RoundTrip.init h
  | setMode m => exact Laws.RoundTrip.setMode m h
  | setConfig cfg => exact Laws.RoundTrip.setConfig cfg h
  | setFraming cfg => exact Laws.RoundTrip.setFraming cfg h
  | setHighPower => exact Laws.RoundTrip.setHighPower h
  | transmit pre payload => exact Laws.RoundTrip.transmit pre payload h
  | available => exact Laws.RoundTrip.available h
  | readByte => exact Laws.RoundTrip.readByte h
  | evEncode code => exact Laws.RoundTrip.evEncode code h
  | evSend code => exact Laws.RoundTrip.evSend code h
  | evDecode b t => exact Laws.RoundTrip.evDecode b t h
  | lsEncode code st => exact Laws.RoundTrip.lsEncode code st h
  | lsSend code st => exact Laws.RoundTrip.lsSend code st h
  | lsDecode b t => exact Laws.RoundTrip.lsDecode b t h

/-! ## What a parser that succeeds has read -/

theorem beNat_cons (b : Byte) (bs : List Byte) : beNat (b :: bs) = b.toNat * 256 ^ bs.length + beNat bs := by
  have hfold : ∀ (bs : List Byte) (acc : Nat),
      bs.foldl (fun acc b => acc * 256 + b.toNat) acc = acc * 256 ^ bs.length + beNat bs := by
    intro bs
    induction bs with
    | nil => intro acc; simp [beNat]
    | cons b bs ih =>
      intro acc
      rw [beNat, List.foldl_cons, List.foldl_cons, ih, ih, List.length_cons, Nat.pow_succ']
      ring
  rw [beNat, List.foldl_cons, hfold]
  simp

theorem beNat_lt (bs : List Byte) : beNat bs < 256 ^ bs.length := by
  induction bs with
  | nil => exact Nat.one_pos
  | cons b bs ih =>
    have hb : b.toNat + 1 ≤ 256 := b.isLt
    have hmul := Nat.mul_le_mul_right (256 ^ bs.length) hb
    rw [beNat_cons, List.length_cons, Nat.pow_succ']
    rw [Nat.add_mul] at hmul
    omega

/-- Bytes that fill a field of `w` bits have a value in it. -/
theorem beNat_lt_two_pow {w : Nat} {bs : List Byte} (h : 8 * bs.length = w) : beNat bs < 2 ^ w := by
  rw [← h, Nat.pow_mul]
  exact beNat_lt bs

/-- The low bytes of a number that ends in the value of a byte string are that string. -/
theorem beBytes_add_beNat (bs : List Byte) (acc : Nat) : beBytes bs.length (acc * 256 ^ bs.length + beNat bs) = bs := by
  induction bs generalizing acc with
  | nil => rfl
  | cons b bs ih =>
    have hsplit : acc * 256 ^ (b :: bs).length + beNat (b :: bs) = (acc * 256 + b.toNat) * 256 ^ bs.length + beNat bs := by
      rw [beNat_cons, List.length_cons, Nat.pow_succ']
      ring
    have hdiv : ((acc * 256 + b.toNat) * 256 ^ bs.length + beNat bs) / 256 ^ bs.length = acc * 256 + b.toNat := by
      rw [Nat.mul_comm, Nat.mul_add_div (by positivity), Nat.div_eq_of_lt (beNat_lt bs), Nat.add_zero]
    have hbyte : BitVec.ofNat 8 (acc * 256 + b.toNat) = b := by
      apply BitVec.eq_of_toNat_eq
      rw [BitVec.toNat_ofNat]
      have := b.isLt
      omega
    rw [hsplit, List.length_cons, beBytes, hdiv, hbyte, ih]

/-- A byte string is written back from its value. -/
theorem beBytes_beNat (bs : List Byte) : beBytes bs.length (beNat bs) = bs := by
  simpa using beBytes_add_beNat bs 0

/-- A byte string is written back from its value in a field of its own width. -/
theorem beBytes_toNat_ofNat {w : Nat} {bs : List Byte} (h : 8 * bs.length = w) :
    beBytes bs.length (BitVec.ofNat w (beNat bs)).toNat = bs := by
  rw [BitVec.toNat_ofNat, Nat.mod_eq_of_lt (beNat_lt_two_pow h), beBytes_beNat]

theorem ofNat_length {data : List Byte} {n : Byte} (h : data.length = n.toNat) : BitVec.ofNat 8 data.length = n := by
  rw [h, BitVec.ofNat_toNat, BitVec.setWidth_eq]

theorem optionalBytes_eq_some {flag : Byte} {bytes : List Byte} {o : Option (List Byte)} :
    optionalBytes flag bytes = some o ↔ flag = 0 ∧ o = none ∨ flag = 1 ∧ o = some bytes := by
  unfold optionalBytes
  split
  · next h => simp [h, eq_comm]
  · next h =>
    split
    · next h1 => simp [h1, eq_comm]
    · next h1 =>
      refine iff_of_false (by simp) ?_
      rintro (⟨h0, _⟩ | ⟨h1', _⟩)
      · exact h h0
      · exact h1 h1'

theorem parseConfig_eq_some {ops : List Byte} {c : RadioConfig} (h : parseConfig ops = some c) :
    encodeOperands (.setConfig c) = ops ∧ ops.length = 13 ∧ c.wf = true := by
  unfold parseConfig at h
  split at h
  · next c0 c1 c2 c3 d0 d1 d2 d3 b0 b1 b2 b3 flags =>
    cases h
    have hc := beBytes_beNat [c0, c1, c2, c3]
    have hd := beBytes_beNat [d0, d1, d2, d3]
    have hb := beBytes_beNat [b0, b1, b2, b3]
    simp only [List.length_cons, List.length_nil] at hc hd hb
    refine ⟨by simp only [encodeOperands, hc, hd, hb]; rfl, rfl, ?_⟩
    simp only [RadioConfig.wf, Bool.and_eq_true, decide_eq_true_eq]
    exact ⟨⟨beNat_lt_two_pow rfl, beNat_lt_two_pow rfl⟩, beNat_lt_two_pow rfl⟩
  · cases h

theorem parseCode_eq_some {ops : List Byte} {code : BitVec 32} (h : parseCode ops = some code) :
    beBytes 4 code.toNat = ops ∧ ops.length = 4 := by
  unfold parseCode at h
  split at h
  · next c0 c1 c2 c3 =>
    cases h
    exact ⟨beBytes_toNat_ofNat (bs := [c0, c1, c2, c3]) rfl, rfl⟩
  · cases h

theorem byteOfLsState_of_lsStateOfByte {b : Byte} {st : Option LsState} (h : lsStateOfByte b = some st) :
    byteOfLsState st = b := by
  unfold lsStateOfByte at h
  split_ifs at h with h0 h1 h2 <;> cases h
  · exact h0.symm
  · exact h1.symm
  · exact h2.symm

theorem parseLs_eq_some {ops : List Byte} {code : BitVec 32} {st : Option LsState} (h : parseLs ops = some (code, st)) :
    byteOfLsState st :: beBytes 4 code.toNat = ops := by
  cases ops with
  | nil => cases h
  | cons b rest =>
    simp only [parseLs, Option.bind_eq_some_iff, Option.map_eq_some_iff, Prod.mk.injEq] at h
    obtain ⟨_, hst, _, hcode, rfl, rfl⟩ := h
    rw [(parseCode_eq_some hcode).1, byteOfLsState_of_lsStateOfByte hst]

theorem parseByteTime_eq_some {ops : List Byte} {b : Byte} {t : Nat} (h : parseByteTime ops = some (b, t)) :
    b :: beBytes 8 t = ops ∧ ops.length = 9 ∧ t < 2 ^ 64 := by
  unfold parseByteTime at h
  split at h
  · next b t0 t1 t2 t3 t4 t5 t6 t7 =>
    cases h
    exact ⟨congrArg (b :: ·) (beBytes_beNat [t0, t1, t2, t3, t4, t5, t6, t7]), rfl, beNat_lt_two_pow rfl⟩
  · cases h

theorem byteOfMode_of_modeOfByte {b : Byte} {m : Mode} (h : modeOfByte b = some m) : byteOfMode m = b := by
  unfold modeOfByte at h
  split_ifs at h with h0 h1 h2 h3 h4 <;> cases h
  · exact h0.symm
  · exact h1.symm
  · exact h2.symm
  · exact h3.symm
  · exact h4.symm

theorem parseWrite_eq_some {ops : List Byte} {i : Instr} :
    parseWrite ops = some i ↔ ∃ a n data, ops = a :: n :: data ∧ data.length = n.toNat ∧ i = .regWrite a data := by
  unfold parseWrite
  split
  · next a n data => simp [eq_comm]
  · next hne => simpa using fun a n data hops => absurd hops (hne a n data)

theorem parseFraming_eq_some {ops : List Byte} {c : FramingConfig} :
    parseFraming ops = some c ↔ ∃ pm p0 p1 fixed sp len sync, ops = pm :: p0 :: p1 :: fixed :: sp :: len :: sync ∧
      (sync.length = len.toNat ∧ len.toNat ≤ 8) ∧ ∃ w, optionalBytes sp sync = some w ∧
        c = { packetModeByte := pm, preambleLength := BitVec.ofNat 16 (beNat [p0, p1]), fixedPayloadLength := fixed,
              syncWord := w } := by
  unfold parseFraming
  split
  · next pm p0 p1 fixed sp len sync => simp [and_assoc, eq_comm]
  · next hne => simpa using fun pm p0 p1 fixed sp len sync hops => absurd hops (hne pm p0 p1 fixed sp len sync)

theorem parseTransmit_eq_some {ops : List Byte} {i : Instr} :
    parseTransmit ops = some i ↔ ∃ pp plen bytes qlen payload, ops = pp :: plen :: (bytes ++ qlen :: payload) ∧
      (bytes.length = plen.toNat ∧ payload.length = qlen.toNat) ∧
      ∃ pre, optionalBytes pp bytes = some pre ∧ i = .transmit pre payload := by
  constructor
  · intro h
    unfold parseTransmit at h
    split at h
    · next pp plen rest =>
      split at h
      · next qlen payload hdrop =>
        split at h
        · next hq =>
          obtain ⟨pre, hpre, rfl⟩ := Option.map_eq_some_iff.1 h
          have hle : plen.toNat ≤ rest.length := by
            have hlen := congrArg List.length hdrop
            rw [List.length_drop, List.length_cons] at hlen
            omega
          refine ⟨pp, plen, rest.take plen.toNat, qlen, payload, ?_, ⟨List.length_take_of_le hle, hq⟩, pre, hpre, rfl⟩
          rw [← hdrop, List.take_append_drop]
        · cases h
      · cases h
    · cases h
  · rintro ⟨pp, plen, bytes, qlen, payload, rfl, ⟨hp, hq⟩, pre, hpre, rfl⟩
    simp [parseTransmit, ← hp, hq, hpre]

/-! ## From operand bytes to commands and back -/

/-- Outside formats F and T the operand bytes are the ones the encoder writes. -/
theorem encodeOperands_of_parseOperands {n : CmdName} {ops : List Byte} {i : Instr} (h : parseOperands n ops = some i)
    (hF : n.format ≠ .F) (hT : n.format ≠ .T) : encodeOperands i = ops := by
  cases n with
  | setFraming => exact absurd rfl hF
  | transmit => exact absurd rfl hT
  | init | setHighPower | available | readByte =>
    simp only [parseOperands, Option.ite_none_right_eq_some, Option.some.injEq] at h
    obtain ⟨rfl, rfl⟩ := h
    rfl
  | regRead =>
    simp only [parseOperands] at h
    split at h <;> cases h
    rfl
  | regWrite =>
    obtain ⟨a, k, data, rfl, hlen, rfl⟩ := parseWrite_eq_some.1 h
    rw [encodeOperands, ofNat_length hlen]
  | setMode =>
    simp only [parseOperands] at h
    split at h
    · obtain ⟨m, hm, rfl⟩ := Option.map_eq_some_iff.1 h
      rw [encodeOperands, byteOfMode_of_modeOfByte hm]
    · cases h
  | setConfig =>
    obtain ⟨c, hc, rfl⟩ := Option.map_eq_some_iff.1 h
    exact (parseConfig_eq_some hc).1
  | evEncode | evSend =>
    obtain ⟨code, hcode, rfl⟩ := Option.map_eq_some_iff.1 h
    exact (parseCode_eq_some hcode).1
  | evDecode | lsDecode =>
    obtain ⟨p, hp, rfl⟩ := Option.map_eq_some_iff.1 h
    exact (parseByteTime_eq_some hp).1
  | lsEncode | lsSend =>
    obtain ⟨p, hp, rfl⟩ := Option.map_eq_some_iff.1 h
    exact parseLs_eq_some hp

/-- The operand bytes of a command name spell a command of that name. -/
theorem name_of_parseOperands {n : CmdName} {ops : List Byte} {i : Instr} (h : parseOperands n ops = some i) :
    i.name = n := by
  cases n with
  | init | setHighPower | available | readByte =>
    simp only [parseOperands, Option.ite_none_right_eq_some, Option.some.injEq] at h
    obtain ⟨_, rfl⟩ := h
    rfl
  | regRead =>
    simp only [parseOperands] at h
    split at h <;> cases h
    rfl
  | setMode =>
    simp only [parseOperands] at h
    split at h
    · obtain ⟨m, _, rfl⟩ := Option.map_eq_some_iff.1 h
      rfl
    · cases h
  | regWrite =>
    obtain ⟨a, k, data, _, _, rfl⟩ := parseWrite_eq_some.1 h
    rfl
  | transmit =>
    obtain ⟨_, _, _, _, _, _, _, _, _, rfl⟩ := parseTransmit_eq_some.1 h
    rfl
  | setConfig | setFraming | evEncode | evSend | evDecode | lsEncode | lsSend | lsDecode =>
    obtain ⟨_, _, rfl⟩ := Option.map_eq_some_iff.1 h
    rfl

theorem decode_opcode (n : CmdName) (ops : List Byte) :
    decode (n.opcode :: ops) = (parseOperands n ops).elim (.badOperand n) .ok := by
  rw [decode, nameOfOpcode_opcode]
  dsimp only
  cases parseOperands n ops <;> rfl

theorem decode_opcode_eq_ok {n : CmdName} {ops : List Byte} {i : Instr} :
    decode (n.opcode :: ops) = .ok i ↔ parseOperands n ops = some i := by
  rw [decode_opcode]
  cases parseOperands n ops <;> simp

/-- A word that spells a command is its opcode and operand bytes that spell the command. -/
theorem exists_of_decode_eq_ok {w : List Byte} {i : Instr} (h : decode w = .ok i) :
    ∃ ops, w = i.name.opcode :: ops ∧ parseOperands i.name ops = some i := by
  cases w with
  | nil => cases h
  | cons op ops =>
    cases hn : nameOfOpcode op with
    | none =>
      rw [decode, hn] at h
      cases h
    | some n =>
      obtain rfl : n.opcode = op := by simpa using List.find?_some hn
      have hparse := decode_opcode_eq_ok.1 h
      obtain rfl := name_of_parseOperands hparse
      exact ⟨ops, rfl, hparse⟩

/-- A framing the decoder read is read back, whatever its absent sync word's bytes were. -/
theorem parseFraming_of_parseFraming {ops : List Byte} {c : FramingConfig} (h : parseFraming ops = some c) :
    parseFraming (encodeOperands (.setFraming c)) = some c := by
  obtain ⟨pm, p0, p1, fixed, sp, len, sync, rfl, ⟨hlen, hmax⟩, w, hw, rfl⟩ := parseFraming_eq_some.1 h
  have hpre : beBytes 2 (BitVec.ofNat 16 (beNat [p0, p1])).toNat = [p0, p1] := beBytes_toNat_ofNat (bs := [p0, p1]) rfl
  rw [encodeOperands, hpre]
  rcases optionalBytes_eq_some.1 hw with ⟨_, rfl⟩ | ⟨_, rfl⟩
  · rfl
  · exact parseFraming_eq_some.2 ⟨pm, p0, p1, fixed, 1, _, sync, rfl, by rw [ofNat_length hlen]; exact ⟨hlen, hmax⟩, _, rfl, rfl⟩

/-- A TRANSMIT the decoder read is read back, whatever its absent preamble's bytes were. -/
theorem parseTransmit_of_parseTransmit {ops : List Byte} {i : Instr} (h : parseTransmit ops = some i) :
    parseTransmit (encodeOperands i) = some i := by
  obtain ⟨pp, plen, bytes, qlen, payload, rfl, ⟨hp, hq⟩, pre, hpre, rfl⟩ := parseTransmit_eq_some.1 h
  refine Laws.RoundTrip.parseTransmit_encode pre payload ?_ (hq ▸ Nat.le_of_lt_succ qlen.isLt)
  rcases optionalBytes_eq_some.1 hpre with ⟨_, rfl⟩ | ⟨_, rfl⟩
  · exact Nat.zero_le _
  · exact hp ▸ Nat.le_of_lt_succ plen.isLt

/-- A command the decoder read is read back from its own word. -/
theorem parseOperands_encodeOperands {ops : List Byte} {i : Instr} (h : parseOperands i.name ops = some i) :
    parseOperands i.name (encodeOperands i) = some i := by
  by_cases hF : i.name.format = .F
  · cases i <;> cases hF
    obtain ⟨c, hc, hi⟩ := Option.map_eq_some_iff.1 h
    cases hi
    exact congrArg (Option.map Instr.setFraming) (parseFraming_of_parseFraming hc)
  by_cases hT : i.name.format = .T
  · cases i <;> cases hT
    exact parseTransmit_of_parseTransmit h
  rwa [encodeOperands_of_parseOperands h hF hT]

/-- Settles O2: outside formats F and T the encoder writes back the operand bytes; in F and T it writes bytes that spell the same
command. -/
theorem encodeWritesBackDecode : Obligations.EncodeWritesBackDecode := by
  intro w i h
  obtain ⟨ops, rfl, hparse⟩ := exists_of_decode_eq_ok h
  exact ⟨decode_opcode_eq_ok.2 (parseOperands_encodeOperands hparse),
    fun hF hT => congrArg (i.name.opcode :: ·) (encodeOperands_of_parseOperands hparse hF hT)⟩

/-! ## The checks of R83 -/

theorem exists_parseCode_iff {ops : List Byte} : (∃ code, parseCode ops = some code) ↔ ops.length = 4 := by
  constructor
  · rintro ⟨_, h⟩
    exact (parseCode_eq_some h).2
  · intro h
    match ops, h with
    | [_, _, _, _], _ => exact ⟨_, rfl⟩

theorem exists_parseConfig_iff {ops : List Byte} : (∃ c, parseConfig ops = some c) ↔ ops.length = 13 := by
  constructor
  · rintro ⟨_, h⟩
    exact (parseConfig_eq_some h).2.1
  · intro h
    match ops, h with
    | [_, _, _, _, _, _, _, _, _, _, _, _, _], _ => exact ⟨_, rfl⟩

theorem exists_parseByteTime_iff {ops : List Byte} : (∃ p, parseByteTime ops = some p) ↔ ops.length = 9 := by
  constructor
  · rintro ⟨_, h⟩
    exact (parseByteTime_eq_some h).2.1
  · intro h
    match ops, h with
    | [_, _, _, _, _, _, _, _, _], _ => exact ⟨_, rfl⟩

/-- Field `st` spells a state exactly when it is at most 2. -/
theorem exists_lsStateOfByte_iff : ∀ b : Byte, (∃ st, lsStateOfByte b = some st) ↔ b.toNat ≤ 2 := by
  simp only [← Option.isSome_iff_exists]
  decide

/-- Field `m` spells a mode exactly when it is at most 4. -/
theorem exists_modeOfByte_iff : ∀ b : Byte, (∃ m, modeOfByte b = some m) ↔ b.toNat ≤ 4 := by
  simp only [← Option.isSome_iff_exists]
  decide

theorem exists_parseLs_iff {ops : List Byte} :
    (∃ p, parseLs ops = some p) ↔ ∃ st code, ops = st :: code ∧ st.toNat ≤ 2 ∧ code.length = 4 := by
  cases ops with
  | nil => simp [parseLs]
  | cons b rest =>
    simp only [parseLs, Option.bind_eq_some_iff, Option.map_eq_some_iff, List.cons.injEq]
    constructor
    · rintro ⟨_, st, hst, code, hcode, _⟩
      exact ⟨b, rest, ⟨rfl, rfl⟩, (exists_lsStateOfByte_iff b).1 ⟨st, hst⟩, exists_parseCode_iff.1 ⟨code, hcode⟩⟩
    · rintro ⟨_, _, ⟨rfl, rfl⟩, hst, hcode⟩
      obtain ⟨st, hst⟩ := (exists_lsStateOfByte_iff b).2 hst
      obtain ⟨code, hcode⟩ := exists_parseCode_iff.2 hcode
      exact ⟨_, st, hst, code, hcode, rfl⟩

/-- What a parser reads of the operand bytes, made into a command by `f`, is well formed whenever `f` is. -/
theorem exists_map_wf_iff {α : Type} {o : Option α} {f : α → Instr} (hf : ∀ a, o = some a → (f a).wf = true) :
    (∃ i, o.map f = some i ∧ i.wf = true) ↔ ∃ a, o = some a := by
  constructor
  · rintro ⟨i, hi, _⟩
    obtain ⟨a, ha, _⟩ := Option.map_eq_some_iff.1 hi
    exact ⟨a, ha⟩
  · rintro ⟨a, ha⟩
    exact ⟨f a, by rw [ha]; rfl, hf a ha⟩

/-- The four commands without operands. -/
theorem exists_noOperands_iff {ops : List Byte} {i : Instr} (hwf : i.wf = true) :
    (∃ j, (if ops = [] then some i else none) = some j ∧ j.wf = true) ↔ ops = [] := by
  simp [hwf]

theorem exists_parseWrite_iff {ops : List Byte} : (∃ i, parseWrite ops = some i ∧ i.wf = true) ↔
    ∃ a k data, ops = a :: k :: data ∧ data.length = k.toNat ∧ 1 ≤ k.toNat := by
  constructor
  · rintro ⟨i, hi, hwf⟩
    obtain ⟨a, k, data, rfl, hlen, rfl⟩ := parseWrite_eq_some.1 hi
    simp only [Instr.wf, Bool.and_eq_true, decide_eq_true_eq] at hwf
    exact ⟨a, k, data, rfl, hlen, hlen ▸ hwf.1⟩
  · rintro ⟨a, k, data, rfl, hlen, hmin⟩
    have hmax := k.isLt
    refine ⟨.regWrite a data, parseWrite_eq_some.2 ⟨a, k, data, rfl, hlen, rfl⟩, ?_⟩
    simp only [Instr.wf, Bool.and_eq_true, decide_eq_true_eq]
    omega

theorem exists_parseFraming_iff {ops : List Byte} :
    (∃ i, (parseFraming ops).map Instr.setFraming = some i ∧ i.wf = true) ↔
      ∃ pm p0 p1 fixed sp len sync, ops = pm :: p0 :: p1 :: fixed :: sp :: len :: sync ∧
        sync.length = len.toNat ∧ len.toNat ≤ 8 ∧ (sp = 0 ∨ sp = 1 ∧ 1 ≤ len.toNat) := by
  constructor
  · rintro ⟨i, hi, hwf⟩
    obtain ⟨c, hc, rfl⟩ := Option.map_eq_some_iff.1 hi
    obtain ⟨pm, p0, p1, fixed, sp, len, sync, rfl, ⟨hlen, hmax⟩, w, hw, rfl⟩ := parseFraming_eq_some.1 hc
    refine ⟨pm, p0, p1, fixed, sp, len, sync, rfl, hlen, hmax, (optionalBytes_eq_some.1 hw).imp And.left ?_⟩
    rintro ⟨hsp, rfl⟩
    simp only [Instr.wf, FramingConfig.wf, Bool.and_eq_true, decide_eq_true_eq] at hwf
    exact ⟨hsp, hlen ▸ hwf.1⟩
  · rintro ⟨pm, p0, p1, fixed, sp, len, sync, rfl, hlen, hmax, hsp⟩
    obtain ⟨w, hw, hwf⟩ : ∃ w, optionalBytes sp sync = some w ∧ ∀ bytes, w = some bytes →
        1 ≤ bytes.length ∧ bytes.length ≤ 8 := by
      rcases hsp with rfl | ⟨rfl, hmin⟩
      · exact ⟨none, rfl, fun _ h => by cases h⟩
      · exact ⟨some sync, rfl, fun _ h => by cases h; omega⟩
    refine ⟨_, Option.map_eq_some_iff.2 ⟨_, parseFraming_eq_some.2
      ⟨pm, p0, p1, fixed, sp, len, sync, rfl, ⟨hlen, hmax⟩, w, hw, rfl⟩, rfl⟩, ?_⟩
    cases w with
    | none => rfl
    | some bytes => simpa [Instr.wf, FramingConfig.wf] using hwf bytes rfl

theorem exists_parseTransmit_iff {ops : List Byte} : (∃ i, parseTransmit ops = some i ∧ i.wf = true) ↔
    ∃ pp plen pre qlen payload, ops = pp :: plen :: (pre ++ qlen :: payload) ∧
      pre.length = plen.toNat ∧ payload.length = qlen.toNat ∧ (pp = 0 ∨ pp = 1) := by
  constructor
  · rintro ⟨i, hi, _⟩
    obtain ⟨pp, plen, bytes, qlen, payload, rfl, ⟨hp, hq⟩, pre, hpre, rfl⟩ := parseTransmit_eq_some.1 hi
    exact ⟨pp, plen, bytes, qlen, payload, rfl, hp, hq, (optionalBytes_eq_some.1 hpre).imp And.left And.left⟩
  · rintro ⟨pp, plen, bytes, qlen, payload, rfl, hp, hq, hpp⟩
    have hpmax := plen.isLt
    have hqmax := qlen.isLt
    obtain ⟨pre, hpre, hlen⟩ : ∃ pre, optionalBytes pp bytes = some pre ∧ (pre.getD []).length ≤ 255 := by
      rcases hpp with rfl | rfl
      · exact ⟨none, rfl, Nat.zero_le _⟩
      · exact ⟨some bytes, rfl, by rw [Option.getD_some]; omega⟩
    refine ⟨_, parseTransmit_eq_some.2 ⟨pp, plen, bytes, qlen, payload, rfl, ⟨hp, hq⟩, pre, hpre, rfl⟩, ?_⟩
    simp only [Instr.wf, Bool.and_eq_true, decide_eq_true_eq]
    omega

/-- R83: the checks of a format are those its parser and `Instr.wf` make. -/
theorem wordOk_iff (n : CmdName) (ops : List Byte) :
    WordOk n ops ↔ ∃ i, parseOperands n ops = some i ∧ i.wf = true := by
  symm
  cases n with
  | init | setHighPower | available | readByte => exact exists_noOperands_iff rfl
  | regRead =>
    show _ ↔ ops.length = 1
    match ops with
    | [] | [_] | _ :: _ :: _ => simp [parseOperands, Instr.wf]
  | regWrite => exact exists_parseWrite_iff
  | setMode =>
    show _ ↔ ∃ m, ops = [m] ∧ m.toNat ≤ 4
    match ops with
    | [] | _ :: _ :: _ => simp [parseOperands]
    | [m] =>
      have hmode := (exists_map_wf_iff (o := modeOfByte m) (f := .setMode) fun _ _ => rfl).trans (exists_modeOfByte_iff m)
      simpa [parseOperands] using hmode
  | setConfig => exact (exists_map_wf_iff (f := .setConfig) fun _ h => (parseConfig_eq_some h).2.2).trans exists_parseConfig_iff
  | setFraming => exact exists_parseFraming_iff
  | transmit => exact exists_parseTransmit_iff
  | evEncode | evSend => exact (exists_map_wf_iff fun _ _ => rfl).trans exists_parseCode_iff
  | evDecode =>
    exact (exists_map_wf_iff (f := fun p => .evDecode p.1 p.2) fun _ h =>
      decide_eq_true (parseByteTime_eq_some h).2.2).trans exists_parseByteTime_iff
  | lsDecode =>
    exact (exists_map_wf_iff (f := fun p => .lsDecode p.1 p.2) fun _ h =>
      decide_eq_true (parseByteTime_eq_some h).2.2).trans exists_parseByteTime_iff
  | lsEncode | lsSend => exact (exists_map_wf_iff fun _ _ => rfl).trans exists_parseLs_iff

/-- In READY a word that spells no well-formed command of the table is refused `BAD_OPERAND`. -/
theorem runWord_malformed {n : CmdName} {ops : List Byte} {s : State} (hp : s.phase = .ready)
    (h : ¬ ∃ i, parseOperands n ops = some i ∧ i.wf = true) : runWord (n.opcode :: ops) s = .next (refuse .badOperand s) := by
  cases hparse : parseOperands n ops with
  | none =>
    have hdecode : decode (n.opcode :: ops) = .badOperand n := by rw [decode_opcode, hparse]; rfl
    exact (runWord_badOperand hdecode s).trans (refuseMalformed_admitted (phaseRefusal_eq_none.2 (.inl hp)))
  | some i =>
    have hwf : i.wf = false := Bool.eq_false_iff.2 fun hwf => h ⟨i, hparse, hwf⟩
    exact (runWord_ok (decode_opcode_eq_ok.2 hparse) s).trans (exec_malformed (phaseRefusal_eq_none.2 (.inl hp)) hwf)

/-- The LightStrip encoder reads code bits 24 to 0 only (R127). -/
theorem lsPayload_congr {c d : BitVec 32} (st : Option LsState) (h : ∀ k, k < 25 → c.getLsbD k = d.getLsbD k) :
    lsPayload c st = lsPayload d st := by
  have hlow : c.setWidth 25 = d.setWidth 25 := BitVec.eq_of_getLsbD_eq fun k hk => by
    rw [BitVec.getLsbD_setWidth, BitVec.getLsbD_setWidth, h k hk]
  rw [lsPayload, lsPayload, lsData, lsData, lsMarker, lsMarker, hlow]

/-- Settles O5: format by format the checks are those of the parser and of `Instr.wf`, and a word that fails them fails the operand
check of R141. -/
theorem wordChecks : Obligations.WordChecks := by
  intro n ops
  refine ⟨?_, fun hno s hp => runWord_malformed hp fun h => hno ((wordOk_iff n ops).2 h), fun pm p0 p1 fixed => ⟨_, rfl, rfl⟩,
    fun c d h => ((evEncodeReadsTwentyFourBits.1 c d).2 h), fun c d st h => lsPayload_congr st h⟩
  simp only [wordOk_iff, decode_opcode_eq_ok]
  exact exists_congr fun i => ⟨fun ⟨hparse, hwf⟩ => ⟨hparse, hwf, name_of_parseOperands hparse⟩,
    fun ⟨hparse, hwf, _⟩ => ⟨hparse, hwf⟩⟩

/-- Settles O3: the decoder runs on each word. -/
theorem listedWordsDecode : Obligations.ListedWordsDecode := by
  unfold Obligations.ListedWordsDecode
  decide

end Sys2Proof.Machine
end

section
/-! PROOF. R35: no rule reads `mode_mirror`. A rule run from two states that differ in the mirror alone ends alike, in states
that differ in the mirror alone; the relation is kept by sequencing, so each rule needs its parts only. -/

namespace Sys2Proof.Machine

/-- Two ends of an action that differ in the mirror alone. -/
inductive Alike {α : Type} : Res α → Res α → Prop
  | ok (a : α) (s : State) (m : Option Mode) : Alike (.ok a s) (.ok a (setMirror m s))
  | err (e : CmdError) (s : State) (m : Option Mode) : Alike (.err e s) (.err e (setMirror m s))

/-- An action that does not read the mirror. -/
def Blind {α : Type} (f : State → Res α) : Prop := ∀ s m, Alike (f s) (f (setMirror m s))

theorem Alike.refl {α : Type} (r : Res α) : Alike r r := by
  cases r with
  | ok a s => exact .ok a s s.modeMirror
  | err e s => exact .err e s s.modeMirror

theorem Alike.bind {α β : Type} {q r : Res α} {f : α → State → Res β} (h : Alike q r) (hf : ∀ a, Blind (f a)) :
    Alike (q.bind f) (r.bind f) := by
  cases h with
  | ok a s m => exact hf a s m
  | err e s m => exact .err e s m

theorem Blind.ok {α : Type} (f : State → α) (hf : ∀ s m, f (setMirror m s) = f s) : Blind fun s => Res.ok (f s) s := by
  intro s m
  show Alike _ (Res.ok (f (setMirror m s)) _)
  rw [hf]
  exact .ok _ s m

theorem blind_done (r : CmdResult) : Blind fun s => Res.ok r s := .ok (fun _ => r) fun _ _ => rfl

/-! ## The primitives -/

theorem regRead_blind (a : Addr) : Blind (regRead a) := by
  intro s m
  cases h : s.xferBusy with
  | true =>
    rw [regRead_busy h, regRead_busy (s := setMirror m s) h]
    exact .err _ s m
  | false =>
    rw [regRead_idle h, regRead_idle (s := setMirror m s) h]
    exact .ok _ (afterRead a s) m

theorem regWrite_blind (a : Addr) (d : List Byte) : Blind (regWrite a d) := by
  intro s m
  cases h : s.xferBusy with
  | true =>
    rw [regWrite_busy h, regWrite_busy (s := setMirror m s) h]
    exact .err _ s m
  | false =>
    rw [regWrite_idle h, regWrite_idle (s := setMirror m s) h]
    exact .ok _ (afterWrite a d s) m

theorem rmw_blind (a : Addr) (x y : Byte) : Blind (rmw a x y) := fun s m =>
  (regRead_blind a s m).bind fun _ => regWrite_blind a _

theorem poll_blind (reg : Addr) (flag : Byte → Bool) (limit period t0 n : Nat) :
    Blind (poll reg flag limit period t0 n) := by
  induction n with
  | zero => exact .ok (fun _ => false) fun _ _ => rfl
  | succ n ih =>
    intro s m
    refine (regRead_blind reg s m).bind fun v s m => ?_
    show Alike _ (if flag v then _ else if s.now - t0 ≥ limit then _ else _)
    split
    · exact .ok _ s m
    · split
      · exact .ok _ s m
      · exact ih (wait period s) m

/-! ## The rules -/

theorem setMode_blind (k : Mode) : Blind (setMode k) := fun s m =>
  (regRead_blind _ s m).bind fun v s m => by
    show Alike _ (if modeField s.cfg v = modeCode k then _ else _)
    split
    · exact .refl _
    · refine (regWrite_blind _ _ s m).bind fun _ s m => ?_
      exact .refl _

theorem setHighPower_blind : Blind setHighPower := fun s m =>
  (rmw_blind _ _ _ s m).bind fun _ s m => rmw_blind _ _ _ s m

theorem writeBwReg_blind (a : Addr) (p : Nat × Nat) : Blind (writeBwReg a p) := by
  intro s m
  unfold writeBwReg
  rw [setMirror_cfg]
  split
  · exact rmw_blind _ _ _ s m
  · exact regWrite_blind _ _ s m

theorem writeRxBw_blind (p : Nat × Nat) : Blind (writeRxBw p) := fun s m =>
  (writeBwReg_blind _ p s m).bind fun _ s m => by
    show Alike _ (if s.cfg.afcbwAlso then _ else _)
    split
    · exact writeBwReg_blind _ p s m
    · exact .ok _ s m

theorem writeBitRate_blind (rc : RadioConfig) : Blind (writeBitRate rc) := by
  intro s m
  unfold writeBitRate
  split
  · exact regWrite_blind _ _ s m
  · exact .ok _ s m

theorem searchAndWriteBw_blind (rc : RadioConfig) : Blind (searchAndWriteBw rc) := by
  intro s m
  unfold searchAndWriteBw
  rw [setMirror_cfg]
  split
  · exact .err _ s m
  · exact writeRxBw_blind _ s m

theorem writeDeviation_blind (rc : RadioConfig) : Blind (writeDeviation rc) := by
  intro s m
  unfold writeDeviation
  split
  · exact (regWrite_blind _ _ s m).bind fun _ => searchAndWriteBw_blind rc
  · exact .ok _ s m

theorem setConfig_blind (rc : RadioConfig) : Blind (setConfig rc) := fun s m =>
  (setMode_blind .standby s m).bind fun _ s m => (regWrite_blind _ _ s m).bind fun _ s m =>
    (regWrite_blind _ _ s m).bind fun _ s m => (writeBitRate_blind rc s m).bind fun _ => writeDeviation_blind rc

theorem writeSync_blind (w : Option (List Byte)) : Blind (writeSync w) := by
  intro s m
  cases w with
  | none => exact regWrite_blind _ _ s m
  | some bytes => exact (regWrite_blind _ _ s m).bind fun _ s m => regWrite_blind _ _ s m

theorem setFraming_blind (fc : FramingConfig) : Blind (setFraming fc) := fun s m =>
  (regWrite_blind _ _ s m).bind fun _ s m => (regWrite_blind _ _ s m).bind fun _ s m =>
    (regWrite_blind _ _ s m).bind fun _ => writeSync_blind fc.syncWord

theorem txTimeout_blind : Blind txTimeout := by
  intro s m
  unfold txTimeout
  rw [setMirror_cfg]
  split
  · have hset := setMode_blind .standby s m
    generalize setMode .standby s = q, setMode .standby (setMirror m s) = r at hset ⊢
    cases hset with
    | ok _ t k => exact .err _ t k
    | err e t k => cases e <;> exact .err _ t k
  · exact .err _ s m

theorem pollPacketSent_blind : Blind pollPacketSent := fun s m =>
  (poll_blind _ _ _ _ _ _ s m).bind fun seen s m => by
    cases seen with
    | true => exact .ok _ s m
    | false => exact txTimeout_blind s m

theorem pushPreamble_blind (pre : Option (List Byte)) : Blind (pushPreamble pre) := by
  intro s m
  unfold pushPreamble
  split
  · exact .ok _ s m
  · exact regWrite_blind _ _ s m

theorem transmit_blind (pre : Option (List Byte)) (payload : List Byte) : Blind (transmit pre payload) := fun s m =>
  (setMode_blind .standby s m).bind fun _ s m => (pushPreamble_blind pre s m).bind fun _ s m =>
    (regWrite_blind _ _ s m).bind fun _ s m => (setMode_blind .tx s m).bind fun _ s m =>
      (pollPacketSent_blind s m).bind fun _ => setMode_blind .standby

theorem sendFraming_blind : Blind sendFraming := by
  intro s m
  unfold sendFraming
  rw [setMirror_cfg]
  split
  · exact .ok _ s m
  · exact setFraming_blind _ s m

theorem transmitTimes_blind (pre : Option (List Byte)) (payload : List Byte) (n : Nat) :
    Blind (transmitTimes pre payload n) := by
  induction n with
  | zero => exact .ok (fun _ => ()) fun _ _ => rfl
  | succ n ih => exact fun s m => (transmit_blind pre payload s m).bind fun _ => ih

theorem lsRepeats_blind (code : BitVec 32) (st : Option LsState) : Blind (lsRepeats code st) := by
  intro s m
  unfold lsRepeats
  rw [setMirror_cfg]
  split
  · exact transmitTimes_blind _ _ _ s m
  · exact transmit_blind _ _ s m

/-! ## Commands -/

/-- A command with a blind rule ends alike from two states that differ in the mirror alone: admission does not read it. -/
theorem command_blind {i : Instr} {ch : Option Reason} {body : State → Res CmdResult} (hbody : Blind body) {s t : State}
    (h : command i ch body s = .next t) (m : Option Mode) :
    ∃ u, command i ch body (setMirror m s) = .next u ∧ { u with modeMirror := none } = { t with modeMirror := none } := by
  have hadm : admission i ch (setMirror m s) = admission i ch s := rfl
  cases ha : admission i ch s with
  | some r =>
    cases (command_refused ha).symm.trans h
    exact ⟨_, command_refused (hadm.trans ha), rfl⟩
  | none =>
    cases (command_admitted ha).symm.trans h
    refine ⟨_, command_admitted (hadm.trans ha), ?_⟩
    have halike := hbody (startCommand s) m
    have hstart : startCommand (setMirror m s) = setMirror m (startCommand s) := rfl
    rw [hstart]
    generalize body (startCommand s) = q, body (setMirror m (startCommand s)) = r at halike ⊢
    cases halike <;> rfl

/-- Settles O58: no rule reads the mirror, and neither does admission. -/
theorem mirrorNeverDecides : Obligations.MirrorNeverDecides := by
  intro i s t m h
  cases i with
  | regRead a => exact command_blind (fun s m => (regRead_blind _ s m).bind fun v => blind_done (.byte v)) h m
  | regWrite a data => exact command_blind (fun s m => (regWrite_blind _ _ s m).bind fun _ => blind_done .done) h m
  | init => exact command_blind (fun s m => .refl _) h m
  | setMode k => exact command_blind (fun s m => (setMode_blind k s m).bind fun _ => blind_done .done) h m
  | setConfig rc => exact command_blind (fun s m => (setConfig_blind rc s m).bind fun _ => blind_done .done) h m
  | setFraming fc => exact command_blind (fun s m => (setFraming_blind fc s m).bind fun _ => blind_done .done) h m
  | setHighPower => exact command_blind (fun s m => (setHighPower_blind s m).bind fun _ => blind_done .done) h m
  | transmit pre payload =>
    exact command_blind (fun s m => (transmit_blind pre payload s m).bind fun _ => blind_done .done) h m
  | available =>
    exact command_blind (fun s m => (regRead_blind _ s m).bind fun v =>
      .ok (fun s => CmdResult.flag (availFlag s.cfg v)) fun _ _ => rfl) h m
  | readByte => exact command_blind (fun s m => (regRead_blind _ s m).bind fun v => blind_done (.byte v)) h m
  | evEncode code => exact command_blind (blind_done (.frame evPreamble (evPayload code))) h m
  | lsEncode code st =>
    exact command_blind (.ok (fun s => CmdResult.frame (lsPreamble s.cfg) (lsPayload code st)) fun _ _ => rfl) h m
  | evDecode b u => exact command_blind (fun s m => .ok _ _ m) h m
  | lsDecode b u => exact command_blind (fun s m => .ok _ _ m) h m
  | evSend code =>
    exact command_blind (fun s m => (setConfig_blind (evConfig s.cfg) s m).bind fun _ s m =>
      (sendFraming_blind s m).bind fun _ s m => (transmit_blind (some evPreamble) (evPayload code) s m).bind fun _ =>
        blind_done .done) h m
  | lsSend code st =>
    exact command_blind (fun s m => (setConfig_blind (lsConfig s.cfg) s m).bind fun _ s m =>
      (sendFraming_blind s m).bind fun _ s m => (lsRepeats_blind code st s m).bind fun _ => blind_done .done) h m

end Sys2Proof.Machine
end

section
/-! PROOF. Admission, outcomes and phases (10_state.md, 60_exceptions.md): the order of the checks, the one outcome of each word,
what a refusal and an error leave, and the pseudo-commands. -/

namespace Sys2Proof.Machine

/-! ## The order of admission -/

theorem not_admittedUninit {n : CmdName} (h : n ∉ [.init, .evEncode, .lsEncode, .evDecode, .lsDecode]) :
    admittedUninit n = false :=
  Bool.eq_false_iff.2 fun hadm => h ((admittedUninit_iff n).1 hadm)

theorem phaseRefusal_admitted {n : CmdName} {s : State}
    (h : s.phase = .ready ∨ s.phase = .uninit ∧ n ∈ [.init, .evEncode, .lsEncode, .evDecode, .lsDecode]) :
    phaseRefusal n s = none :=
  phaseRefusal_eq_none.2 (h.imp_right fun ⟨hp, hn⟩ => ⟨hp, (admittedUninit_iff n).2 hn⟩)

/-- Settles O6: the phase checks come first (R141), for a command and for a malformed word alike. -/
theorem admissionOrder : Obligations.AdmissionOrder := by
  refine fun s => ⟨fun i => ⟨fun hp => ?_, fun hp => ?_, fun hp hn => ?_, fun hp hwf => ?_⟩,
    fun w n hw => ⟨fun hp => ?_, fun hp => ?_, fun hp hn => ?_, fun hp => ?_⟩⟩
  · exact exec_phase_refused (phaseRefusal_busy hp)
  · exact exec_phase_refused (phaseRefusal_failed hp)
  · exact exec_phase_refused (phaseRefusal_uninit hp (not_admittedUninit hn))
  · exact exec_malformed (phaseRefusal_admitted hp) hwf
  · exact (runWord_badOperand hw s).trans (refuseMalformed_phase (phaseRefusal_busy hp))
  · exact (runWord_badOperand hw s).trans (refuseMalformed_phase (phaseRefusal_failed hp))
  · exact (runWord_badOperand hw s).trans (refuseMalformed_phase (phaseRefusal_uninit hp (not_admittedUninit hn)))
  · exact (runWord_badOperand hw s).trans (refuseMalformed_admitted (phaseRefusal_admitted hp))

/-! ## Steps -/

theorem decode_tableWord {nbits w : Nat} {i : Instr} (h : decodeTableWord nbits w = some i) :
    decode (tableWord nbits w) = .ok i := by
  unfold decodeTableWord at h
  split at h
  · next hw => cases h; exact hw
  · cases h
  · cases h

/-- Settles O7: a step takes the word at the head of the port, which `withFetchWord` sets. -/
theorem stepRunsDecodedCommand : Obligations.StepRunsDecodedCommand :=
  ⟨fun _ _ _ _ hport hw => (step_issue hport).trans (runWord_ok hw _), fun _ hport => step_waits hport,
    fun s _ _ _ hw => (step_issue (s := s.withFetchWord _ _) rfl).trans (runWord_ok (decode_tableWord hw) s)⟩

theorem step_next (s : State) : ∃ t, step s = .next t := by
  rcases hport : s.port with _ | ⟨w | w | _, rest⟩
  case nil => exact ⟨_, step_waits hport⟩
  case issue =>
    rw [step_issue hport]
    rcases runWord_cases w { s with port := rest } with ⟨i, _, hi⟩ | ⟨r, hr⟩
    · rw [hi]
      exact exec_next i _
    · exact ⟨_, hr⟩
  case overlap => exact ⟨_, step_overlap hport⟩
  case powerOn => exact ⟨_, step_powerOn hport⟩

/-- Settles O8: every command is a refusal or the end of its rule, both next states. -/
theorem everyStepAnswersNext : Obligations.EveryStepAnswersNext := ⟨step_next, exec_next⟩

/-! ## Outcomes -/

/-- A command appends one outcome and leaves the port. -/
theorem Ended.outcome {i : Instr} {s t : State} (h : Ended i s t) :
    (∃ r, t.replies = s.replies ++ [r]) ∧ t.port = s.port := by
  cases h with
  | refused r => exact ⟨⟨_, rfl⟩, rfl⟩
  | returned r u _ ran =>
    obtain ⟨_, _, hport, hreplies⟩ := ran.frame
    exact ⟨⟨.result r, by simp [hreplies]⟩, hport⟩
  | error e u _ ran _ =>
    obtain ⟨_, _, hport, hreplies⟩ := ran.frame
    exact ⟨⟨.error e, by simp [hreplies]⟩, hport⟩

/-- Settles O9: a word is refused, or its command ends in one of three ways, each with one outcome. -/
theorem oneOutcomePerCommand : Obligations.OneOutcomePerCommand := by
  intro s t w rest hport hstep
  have hrest : s.port.tail = rest := by rcases hport with h | h <;> rw [h] <;> rfl
  cases step_cases hstep with
  | waits h => simp [h] at hport
  | powerOn rest' h => simp [h] at hport
  | runs w' rest' i h run =>
    obtain rfl : rest' = rest := by simpa [h] using hrest
    exact (exec_cases run).outcome
  | refuses w' rest' r h =>
    obtain rfl : rest' = rest := by rcases h with h | h <;> simpa [h] using hrest
    exact ⟨⟨_, rfl⟩, rfl⟩

/-- The outcome of a command tells how it ended. -/
theorem Ended.of_refusal {i : Instr} {s t : State} {r : Reason} (h : Ended i s t) (hr : t.replies = s.replies ++ [.refusal r]) :
    t = refuse r s := by
  cases h with
  | refused r' =>
    cases List.append_cancel_left hr
    rfl
  | returned r' u _ ran =>
    obtain ⟨_, _, _, hreplies⟩ := ran.frame
    simp [hreplies] at hr
  | error e u _ ran _ =>
    obtain ⟨_, _, _, hreplies⟩ := ran.frame
    simp [hreplies] at hr

theorem Ended.of_error {i : Instr} {s t : State} {e : CmdError} (h : Ended i s t) (hr : t.replies = s.replies ++ [.error e]) :
    ∃ u, t = endOnError s.phase e u ∧ Ran i (startCommand s) u ∧ (s.xferBusy = false → MayRaise i e) := by
  cases h with
  | refused r' => cases List.append_cancel_left hr
  | returned r' u _ ran =>
    obtain ⟨_, _, _, hreplies⟩ := ran.frame
    simp [hreplies] at hr
  | error e' u _ ran may =>
    obtain ⟨_, _, _, hreplies⟩ := ran.frame
    obtain rfl : e' = e := by simpa [hreplies] using hr
    exact ⟨u, rfl, ran, may⟩

/-- Settles O10: a refused word leaves the state of `refuse`. -/
theorem refusalHasNoOtherEffect : Obligations.RefusalHasNoOtherEffect := by
  intro w s t r hrun hr
  rcases runWord_cases w s with ⟨i, _, hi⟩ | ⟨r', hr'⟩
  · exact (exec_cases (hi.symm.trans hrun)).of_refusal hr
  · cases hr'.symm.trans hrun
    cases List.append_cancel_left hr
    rfl

/-- Settles O11: BUSY and FAILED refuse every command before anything else, so only a power-on changes the phase in FAILED. -/
theorem overlapAndFailedRefuse : Obligations.OverlapAndFailedRefuse := by
  refine fun s w rest => ⟨step_overlap, fun hport hp => ?_, fun t hp hstep ht => ?_⟩
  · exact (step_issue hport).trans (runWord_phase_refused (s := { s with port := rest }) (fun n => phaseRefusal_failed hp) w)
  · cases step_cases hstep with
    | waits h => exact absurd hp ht
    | powerOn rest' h => simp [h]
    | runs w' rest' i h run =>
      cases (exec_phase_refused (s := { s with port := rest' }) (phaseRefusal_failed hp)).symm.trans run
      exact absurd hp ht
    | refuses w' rest' r h => exact absurd hp ht

/-! ## Phases -/

/-- Settles O12: a command that returned leaves the phase unless it is INIT, which leaves READY; of the errors the fatal ones
leave FAILED. -/
theorem phaseChanges : Obligations.PhaseChanges := by
  intro i s t h
  cases exec_cases h with
  | refused r => exact .inl rfl
  | returned r u _ ran =>
    by_cases hi : i = .init
    · subst hi
      have hreplies : u.replies = s.replies := ran.frame.2.2.2
      obtain ⟨v, hbody, _⟩ := command_returned h (by rw [endOnReturn_replies, hreplies])
      obtain ⟨_, _, _, hdone⟩ := Res.bind_eq_ok hbody
      cases hdone
      exact .inr (.inl ⟨rfl, rfl, by rw [endOnReturn_replies, hreplies]⟩)
    · exact .inl (phaseAfter_of_ne_init hi s.phase)
  | error e u _ ran _ =>
    cases he : e.isFatal with
    | false => exact .inl (by simp [he])
    | true => exact .inr (.inr ⟨by simp [he], e, he, by simp [ran.frame.2.2.2], by simp [he]⟩)

/-- Settles O42: in READY TRANSMIT's own checks come next, the empty payload first. -/
theorem transmitRefusals : Obligations.TransmitRefusals := by
  refine fun s pre payload hp hwf => ⟨fun hnil => ?_, fun hne hbig => ?_⟩
  · have hcheck : transmitRefusal s.cfg pre payload = some .emptyPayload := by simp [transmitRefusal, check, hnil]
    exact command_refused ((admission_ready hp hwf).trans hcheck)
  · have hcheck : transmitRefusal s.cfg pre payload = some .fifoOverflow := by
      simp [transmitRefusal, check, hne, Nat.not_le.2 hbig]
    exact command_refused ((admission_ready hp hwf).trans hcheck)

/-! ## Power-on, codecs, pseudo-commands -/

theorem reset_inv : Inv State.reset := by
  constructor <;> simp [State.reset, Radio.initial, Memory.wf, Memory.wfFrom]

/-- Settles O56: a power-on step is `powerOn`. -/
theorem powerOnState : Obligations.PowerOnState := by
  refine ⟨fun s hs => ?_, fun u s rest hport hstep => ?_, reset_inv⟩
  · rcases hs with rfl | ⟨u, rest, hport, hstep⟩
    · exact ⟨rfl, rfl, rfl, rfl, rfl, rfl, rfl, rfl, rfl, rfl, rfl⟩
    · cases (step_powerOn hport).symm.trans hstep
      exact ⟨rfl, rfl, rfl, rfl, rfl, rfl, rfl, rfl, rfl, rfl, rfl⟩
  · cases (step_powerOn hport).symm.trans hstep
    exact ⟨rfl, rfl, rfl, rfl, rfl, rfl⟩

/-- What a codec command leaves: all but its decoder's variables, its outcome and the step index. -/
structure CodecFrame (i : Instr) (s t : State) : Prop where
  noBus      : NoBus s t
  modeMirror : t.modeMirror = s.modeMirror
  fatal      : t.fatal = s.fatal
  ev         : i.name ≠ .evDecode → t.evAcc = s.evAcc ∧ t.evLast = s.evLast
  ls         : i.name ≠ .lsDecode → t.lsAcc = s.lsAcc ∧ t.lsLast = s.lsLast

theorem Ran.codecFrame {i : Instr} {s t : State} (hi : i.name ∈ [.evEncode, .evDecode, .lsEncode, .lsDecode])
    (h : Ran i s t) : CodecFrame i s t := by
  have same : NoBus s s := ⟨rfl, rfl, rfl, rfl, rfl, rfl, rfl, rfl, rfl, rfl⟩
  cases i with
  | evEncode | lsEncode => cases h; exact ⟨same, rfl, rfl, fun _ => ⟨rfl, rfl⟩, fun _ => ⟨rfl, rfl⟩⟩
  | evDecode => cases h; exact ⟨{ same with }, rfl, rfl, fun hne => absurd rfl hne, fun _ => ⟨rfl, rfl⟩⟩
  | lsDecode => cases h; exact ⟨{ same with }, rfl, rfl, fun _ => ⟨rfl, rfl⟩, fun hne => absurd rfl hne⟩
  | init | regRead | regWrite | setMode | setConfig | setFraming | setHighPower | transmit | available | readByte | evSend
  | lsSend => simp [Instr.name] at hi

/-- A command whose rule returns is refused or returns. -/
theorem command_of_ok {i : Instr} {ch : Option Reason} {body : State → Res CmdResult} {s t : State} {r : CmdResult} {u : State}
    (h : command i ch body s = .next t) (hbody : body (startCommand s) = .ok r u) :
    (∃ reason, t = refuse reason s) ∨ t = endOnReturn (phaseAfter i.name s.phase) r u := by
  cases ha : admission i ch s with
  | some reason =>
    cases (command_refused ha).symm.trans h
    exact .inl ⟨reason, rfl⟩
  | none =>
    rw [command_admitted ha, hbody] at h
    cases h
    exact .inr rfl

/-- The codecs' own commands raise no error, whatever the state. -/
theorem codec_refused_or_returned {i : Instr} {s t : State} (hi : i.name ∈ [.evEncode, .evDecode, .lsEncode, .lsDecode])
    (h : exec i s = .next t) :
    (∃ reason, t = refuse reason s) ∨ ∃ r u, t = endOnReturn s.phase r u ∧ Ran i (startCommand s) u := by
  cases i with
  | evEncode | lsEncode | evDecode | lsDecode =>
    exact (command_of_ok h rfl).imp_right fun ht => ⟨_, _, ht, rfl⟩
  | init | regRead | regWrite | setMode | setConfig | setFraming | setHighPower | transmit | available | readByte | evSend
  | lsSend => simp [Instr.name] at hi

/-- Settles O57: the codecs' rules are pure or one update of a decoder, and they raise no error. -/
theorem codecsTouchNoPin : Obligations.CodecsTouchNoPin := by
  intro i s t hi h
  rcases codec_refused_or_returned hi h with ⟨r, rfl⟩ | ⟨r, u, rfl, ran⟩
  · exact ⟨⟨rfl, rfl, rfl, rfl, rfl, rfl, rfl, rfl, rfl, rfl⟩, rfl, rfl, rfl, fun _ => ⟨rfl, rfl⟩, fun _ => ⟨rfl, rfl⟩⟩
  · obtain ⟨hbus, hmirror, hfatal, hev, hls⟩ := ran.codecFrame hi
    exact ⟨{ hbus with }, rfl, hmirror, hfatal, hev, hls⟩

/-- R90: the bytes of a register value, most significant first, are its byte fields. -/
theorem msbFirst_two (v : BitVec 16) : msbFirst 2 v.toNat = [v.extractLsb' 8 8, v.extractLsb' 0 8] := by
  simp [msbFirst, beBytes, BitVec.extractLsb', Nat.shiftRight_eq_div_pow]

theorem msbFirst_three (v : BitVec 24) :
    msbFirst 3 v.toNat = [v.extractLsb' 16 8, v.extractLsb' 8 8, v.extractLsb' 0 8] := by
  simp [msbFirst, beBytes, BitVec.extractLsb', Nat.shiftRight_eq_div_pow]

theorem lastByte_of_replies {s : State} {rs : List Reply} {v : Byte} (h : s.replies = rs ++ [.result (.byte v)]) :
    lastByte s = some v := by
  rw [lastByte, h, List.getLast?_concat]

/-- Settles O60: each pseudo-command runs the commands of its expansion in order. -/
theorem pseudoExpansions : Obligations.PseudoExpansions := by
  refine ⟨fun s => ⟨rfl, rfl, rfl⟩, fun s a v => ?_, fun s a v => ?_, fun s t a x y v ht hr => ?_, fun s t u ht hu => ?_⟩
  · rw [← msbFirst_two]
    rfl
  · rw [← msbFirst_three]
    rfl
  · simp [runPseudo, Pseudo.expand, runExpansion, ht, lastByte_of_replies hr]
  · simp [runPseudo, Pseudo.expand, runExpansion, ht, hu]

end Sys2Proof.Machine
end

section
/-! PROOF. What a command adds to the trace and does to the radio's registers and to time (20_memory.md, 30_encoding.md
section 1, 40_spi.md): each fact once for bus sequences, then for every command. -/

namespace Sys2Proof.Machine

/-! ## Frames and registers -/

/-- `t` has the parameters of `s`, and its trace continues that of `s` by framed transfers, line changes and waits. -/
def AddsFrames (s t : State) : Prop :=
  t.cfg = s.cfg ∧ ∃ es, t.trace = s.trace ++ es ∧ ∀ e ∈ es, framed e = true

theorem AddsFrames.none {s t : State} (hc : t.cfg = s.cfg) (ht : t.trace = s.trace) : AddsFrames s t :=
  ⟨hc, [], by simp [ht], by simp⟩

theorem AddsFrames.trans {s t u : State} (h : AddsFrames s t) (k : AddsFrames t u) : AddsFrames s u := by
  obtain ⟨hc, es, ht, he⟩ := h
  obtain ⟨kc, fs, kt, ke⟩ := k
  exact ⟨kc.trans hc, es ++ fs, by rw [kt, ht, List.append_assoc], List.forall_mem_append.2 ⟨he, ke⟩⟩

theorem Bus.addsFrames {s t : State} (h : Bus s t) : AddsFrames s t := by
  obtain ⟨es, ht, he, _⟩ := h.trace
  exact ⟨h.cfg, es, ht, he⟩

theorem resetPulse_trace (s : State) : (resetPulse s).trace =
    s.trace ++ [.resetLine .high, .wait s.cfg.tResetHigh, .resetLine .low, .wait s.cfg.tResetWait] := by
  simp [resetPulse]

theorem resetPulse_addsFrames (s : State) : AddsFrames s (clearOnInit (resetPulse s)) :=
  ⟨rfl, _, resetPulse_trace s, by simp [framed]⟩

theorem Ran.addsFrames {i : Instr} {s t : State} (h : Ran i s t) : AddsFrames s t := by
  cases i with
  | init => exact (resetPulse_addsFrames s).trans (Bus.addsFrames h)
  | evEncode | lsEncode | evDecode | lsDecode => cases h; exact .none rfl rfl
  | regRead | regWrite | setMode | setConfig | setFraming | setHighPower | transmit | available | readByte | evSend
  | lsSend => exact Bus.addsFrames h

/-- Settles O21: the transfers of a rule are those of a bus sequence. -/
theorem everyTransferIsAFrame : Obligations.EveryTransferIsAFrame := by
  intro i s t h
  cases exec_cases h with
  | refused r => exact (AddsFrames.none rfl rfl : AddsFrames s (refuse r s)).2
  | returned r u _ ran => exact ran.addsFrames.2
  | error e u _ ran _ => exact ran.addsFrames.2

/-- Every register that no write frame of the trace between covers holds what it held. -/
def KeepsUncovered (s t : State) : Prop :=
  ∃ es, t.trace = s.trace ++ es ∧ ∀ a, (∀ e ∈ es, a ∉ writtenAddrs s.cfg e) →
    Memory.get a t.radio.regs = Memory.get a s.radio.regs ∧ t.radio.reg a = s.radio.reg a

theorem KeepsUncovered.none {s t : State} (ht : t.trace = s.trace) (hr : t.radio = s.radio) : KeepsUncovered s t :=
  ⟨[], by simp [ht], fun _ _ => by rw [hr]; exact ⟨rfl, rfl⟩⟩

theorem Bus.keepsUncovered {s t : State} (h : Bus s t) : KeepsUncovered s t := by
  obtain ⟨es, ht, _, hget⟩ := h.trace
  exact ⟨es, ht, fun a ha => ⟨hget a ha, Radio.reg_congr (hget a ha) h.resets⟩⟩

theorem Ran.keepsUncovered {i : Instr} {s t : State} (hi : i ≠ .init) (h : Ran i s t) : KeepsUncovered s t := by
  cases i with
  | init => exact absurd rfl hi
  | evEncode | lsEncode | evDecode | lsDecode => cases h; exact .none rfl rfl
  | regRead | regWrite | setMode | setConfig | setFraming | setHighPower | transmit | available | readByte | evSend
  | lsSend => exact Bus.keepsUncovered h

/-- Settles O22: every rule but INIT's is a bus sequence or touches no radio. -/
theorem memoryFrame : Obligations.MemoryFrame := by
  intro i s t es hi h ht a ha
  obtain ⟨fs, hfs, hkept⟩ : KeepsUncovered s t := by
    cases exec_cases h with
    | refused r => exact .none rfl rfl
    | returned r u _ ran =>
      have hkept : KeepsUncovered (startCommand s) u := ran.keepsUncovered hi
      exact hkept
    | error e u _ ran _ =>
      have hkept : KeepsUncovered (startCommand s) u := ran.keepsUncovered hi
      exact hkept
  obtain rfl : fs = es := List.append_cancel_left (hfs.symm.trans ht)
  exact hkept a ha

/-! ## Time -/

theorem waitTotal_append (es fs : List Event) : waitTotal (es ++ fs) = waitTotal es + waitTotal fs := by
  induction es with
  | nil => simp [waitTotal]
  | cons e es ih => cases e <;> simp [waitTotal, ih, Nat.add_assoc]

/-- `t` has the parameters of `s`, its trace continues that of `s`, and its time has passed the waits between. -/
def Elapses (s t : State) : Prop :=
  t.cfg = s.cfg ∧ ∃ es, t.trace = s.trace ++ es ∧ s.now + waitTotal es ≤ t.now

theorem Elapses.none {s t : State} (hc : t.cfg = s.cfg) (ht : t.trace = s.trace) (hn : t.now = s.now) : Elapses s t :=
  ⟨hc, [], by simp [ht], hn.ge⟩

theorem Elapses.one {s t : State} {e : Event} (hc : t.cfg = s.cfg) (ht : t.trace = s.trace ++ [e])
    (hn : s.now + waitTotal [e] ≤ t.now) : Elapses s t :=
  ⟨hc, [e], ht, hn⟩

theorem Elapses.trans {s t u : State} (h : Elapses s t) (k : Elapses t u) : Elapses s u := by
  obtain ⟨hc, es, ht, hn⟩ := h
  obtain ⟨kc, fs, kt, kn⟩ := k
  refine ⟨kc.trans hc, es ++ fs, by rw [kt, ht, List.append_assoc], ?_⟩
  rw [waitTotal_append]
  omega

theorem wait_elapses (n : Nat) (s : State) : Elapses s (wait n s) :=
  .one rfl rfl (Nat.le_add_right _ _)

theorem setResetLine_elapses (l : Level) (s : State) : Elapses s (setResetLine l s) := .one rfl rfl (Nat.le_refl _)

theorem Bus.elapses {s t : State} (h : Bus s t) : Elapses s t := by
  induction h with
  | refl => exact .none rfl rfl rfl
  | read a _ _ ih => exact ih.trans (.one rfl rfl (Nat.le_add_right _ _))
  | write a d _ _ _ _ ih => exact ih.trans (.one rfl rfl (Nat.le_add_right _ _))
  | wait n _ ih => exact ih.trans (wait_elapses n _)
  | mirror m _ ih => exact ih.trans (.none rfl rfl rfl)

/-- R93: the pulse passes its two waits. -/
theorem resetPulse_elapses (s : State) : Elapses s (clearOnInit (resetPulse s)) := by
  have high : Elapses s (resetRadio (setResetLine .high s)) := setResetLine_elapses .high s
  have clear : Elapses (resetPulse s) (clearOnInit (resetPulse s)) := .none rfl rfl rfl
  exact (((high.trans (wait_elapses _ _)).trans (setResetLine_elapses .low _)).trans (wait_elapses _ _)).trans clear

theorem Ran.elapses {i : Instr} {s t : State} (h : Ran i s t) : Elapses s t := by
  cases i with
  | init => exact (resetPulse_elapses s).trans (Bus.elapses h)
  | evEncode | lsEncode | evDecode | lsDecode => cases h; exact .none rfl rfl rfl
  | regRead | regWrite | setMode | setConfig | setFraming | setHighPower | transmit | available | readByte | evSend
  | lsSend => exact Bus.elapses h

/-- Settles O59: a step that runs a rule passes its waits; every other step leaves time and trace. -/
theorem timePassesWaits : Obligations.TimePassesWaits := by
  intro s t hstep
  cases step_cases hstep with
  | waits => exact Elapses.none rfl rfl rfl
  | powerOn rest => exact (Elapses.none rfl rfl rfl : Elapses s (powerOn { s with port := rest }))
  | refuses w rest r => exact (Elapses.none rfl rfl rfl : Elapses s (refuse r { s with port := rest }))
  | runs w rest i _ run =>
    cases exec_cases run with
    | refused r => exact (Elapses.none rfl rfl rfl : Elapses s (refuse r { s with port := rest }))
    | returned r u _ ran => exact ran.elapses
    | error e u _ ran _ => exact ran.elapses

/-! ## ConcurrentTransferError (R91, R92) -/

/-- Settles O20: from the invariant no transfer is in flight, and then no command raises the error. -/
theorem concurrentTransferUnreachable : Obligations.ConcurrentTransferUnreachable := by
  intro s t hinv hstep
  have ht : Inv t := invariantKept s t hinv hstep
  refine ⟨ht.noXfer, fun hfatal => ?_, fun hreply => ?_⟩
  · rcases ht.fatalIs with h | h <;> rw [h] at hfatal <;> cases hfatal
  · cases step_cases hstep with
    | waits => simp at hreply
    | powerOn rest => simp at hreply
    | refuses w rest r => simp at hreply
    | runs w rest i _ run =>
      obtain ⟨_, _, _, may⟩ := (exec_cases run).of_error hreply
      rcases mayRaise_iff.1 (may hinv.noXfer) with ⟨_, v, hv⟩ | ⟨_, hfatal⟩
      · cases hv
      · cases hfatal

theorem setMode_busy {s : State} (h : s.xferBusy = true) (m : Mode) : setMode m s = .err .concurrentTransfer s := by
  rw [setMode, regRead_busy h, Res.bind_err]

theorem setHighPower_busy {s : State} (h : s.xferBusy = true) : setHighPower s = .err .concurrentTransfer s := by
  rw [setHighPower, rmw, regRead_busy h, Res.bind_err, Res.bind_err]

theorem setConfig_busy {s : State} (h : s.xferBusy = true) (rc : RadioConfig) :
    setConfig rc s = .err .concurrentTransfer s := by
  rw [setConfig, setMode_busy h, Res.bind_err]

theorem setFraming_busy {s : State} (h : s.xferBusy = true) (fc : FramingConfig) :
    setFraming fc s = .err .concurrentTransfer s := by
  rw [setFraming, regWrite_busy h, Res.bind_err]

theorem transmit_busy {s : State} (h : s.xferBusy = true) (pre : Option (List Byte)) (payload : List Byte) :
    transmit pre payload s = .err .concurrentTransfer s := by
  rw [transmit, setMode_busy h, Res.bind_err]

theorem identify_busy {s : State} (h : s.xferBusy = true) (n : Nat) : identify n s = .err .concurrentTransfer s := by
  cases n <;> rw [identify, regRead_busy h, Res.bind_err]

/-- The outcome R91 asks for: no transfer, and a refusal or the fatal error. -/
def NoTransferAndFails (s t : State) : Prop :=
  (∃ es, t.trace = s.trace ++ es ∧ sent es = []) ∧
  ((∃ r, t.replies = s.replies ++ [.refusal r]) ∨
    (t.replies = s.replies ++ [.error .concurrentTransfer] ∧ t.phase = .failed ∧ t.fatal = some .concurrentTransfer))

/-- A command whose rule meets a transfer in flight before any of its own. -/
theorem command_concurrent {i : Instr} {ch : Option Reason} {body : State → Res CmdResult} {s t u : State} {es : List Event}
    (h : command i ch body s = .next t) (hbody : body (startCommand s) = .err .concurrentTransfer u)
    (hreplies : u.replies = s.replies) (htrace : u.trace = s.trace ++ es) (hsent : sent es = []) : NoTransferAndFails s t := by
  cases ha : admission i ch s with
  | some reason =>
    cases (command_refused ha).symm.trans h
    exact ⟨⟨[], by simp, rfl⟩, .inl ⟨reason, rfl⟩⟩
  | none =>
    rw [command_admitted ha, hbody] at h
    cases h
    exact ⟨⟨es, htrace, hsent⟩, .inr ⟨by simp [endCommand, hreplies], rfl, rfl⟩⟩

/-- Settles O19: the first transfer of each rule is refused the bus; before it INIT alone has done anything, its reset pulse. -/
theorem overlappingTransferIsFatal : Obligations.OverlappingTransferIsFatal := by
  intro i s t _ hbusy hi h
  have hb : (startCommand s).xferBusy = true := hbusy
  have nothing : ∀ {i ch body}, command i ch body s = .next t →
      body (startCommand s) = .err .concurrentTransfer (startCommand s) → NoTransferAndFails s t :=
    fun hrun hbody => command_concurrent (es := []) hrun hbody rfl (List.append_nil _).symm rfl
  cases i with
  | evEncode | lsEncode | evDecode | lsDecode => exact absurd hi (by simp [Instr.name])
  | init =>
    have hpulse : (clearOnInit (resetPulse (startCommand s))).xferBusy = true := hb
    exact command_concurrent (u := clearOnInit (resetPulse (startCommand s))) h (by rw [identify_busy hpulse]; rfl) rfl
      (resetPulse_trace (startCommand s)) rfl
  | regRead a => exact nothing h (by rw [regRead_busy hb]; rfl)
  | regWrite a data => exact nothing h (by rw [regWrite_busy hb]; rfl)
  | setMode m => exact nothing h (by rw [setMode_busy hb]; rfl)
  | setConfig rc => exact nothing h (by rw [setConfig_busy hb]; rfl)
  | setFraming fc => exact nothing h (by rw [setFraming_busy hb]; rfl)
  | setHighPower => exact nothing h (by rw [setHighPower_busy hb]; rfl)
  | transmit pre payload => exact nothing h (by rw [transmit_busy hb]; rfl)
  | available => exact nothing h (by rw [regRead_busy hb]; rfl)
  | readByte => exact nothing h (by rw [regRead_busy hb]; rfl)
  | evSend code => exact nothing h (by rw [setConfig_busy hb]; rfl)
  | lsSend code st => exact nothing h (by rw [setConfig_busy hb]; rfl)

end Sys2Proof.Machine
end

section
/-! PROOF. Errors (60_exceptions.md section 1): which errors each rule can raise, in which state it leaves the mirror, and the
two time-outs. -/

namespace Sys2Proof.Machine

/-! ## Errors of an action -/

/-- Every error the action raises, with the state it raises it in, satisfies `P`. -/
def Raises {α : Type} (P : CmdError → State → Prop) (r : Res α) : Prop := ∀ e t, r = .err e t → P e t

theorem Raises.ok {α : Type} {P : CmdError → State → Prop} (a : α) (s : State) : Raises P (Res.ok a s) :=
  fun _ _ h => by cases h

theorem Raises.err {α : Type} {P : CmdError → State → Prop} {e : CmdError} {s : State} (h : P e s) :
    Raises P (Res.err e s : Res α) :=
  fun _ _ k => by cases k; exact h

theorem Raises.bind {α β : Type} {P : CmdError → State → Prop} {r : Res α} {f : α → State → Res β} (h : Raises P r)
    (hf : ∀ a t, r = .ok a t → Raises P (f a t)) : Raises P (r.bind f) := by
  intro e t k
  rcases Res.bind_eq_err k with k | ⟨a, u, k, k'⟩
  · exact h e t k
  · exact hf a u k e t k'

theorem Raises.mono {α : Type} {P Q : CmdError → State → Prop} {r : Res α} (h : Raises P r) (hPQ : ∀ e t, P e t → Q e t) :
    Raises Q r := fun e t k => hPQ e t (h e t k)

/-- R91: the one error of a transfer. -/
def BusError (e : CmdError) (_ : State) : Prop := e = .concurrentTransfer

/-- R96, R97: the errors of a change to mode `m`. -/
def ModeError (m : Mode) (e : CmdError) (t : State) : Prop :=
  e = .concurrentTransfer ∨ e = .modeTimeout m ∧ t.modeMirror = none

/-- R109, R110: the errors of SET_CONFIG. -/
def ConfigError (c : Config) (rc : RadioConfig) (e : CmdError) (t : State) : Prop :=
  ModeError .standby e t ∨ e = .bandwidthRange (bwTarget rc.freqDeviationHz rc.bitRateBps) ∧
    bwSearch rc.freqDeviationHz rc.bitRateBps (isOok c rc.modulationFlags) = none

/-- R114, R115: the errors of TRANSMIT. -/
def TransmitError (e : CmdError) (t : State) : Prop := ModeError .standby e t ∨ ModeError .tx e t ∨ e = .transmitTimeout

theorem regRead_raises (a : Addr) (s : State) : Raises BusError (regRead a s) := by
  cases h : s.xferBusy with
  | true => rw [regRead_busy h]; exact .err rfl
  | false => rw [regRead_idle h]; exact .ok _ _

theorem regWrite_raises (a : Addr) (d : List Byte) (s : State) : Raises BusError (regWrite a d s) := by
  cases h : s.xferBusy with
  | true => rw [regWrite_busy h]; exact .err rfl
  | false => rw [regWrite_idle h]; exact .ok _ _

theorem rmw_raises (a : Addr) (x y : Byte) (s : State) : Raises BusError (rmw a x y s) :=
  (regRead_raises a s).bind fun _ t _ => regWrite_raises a _ t

theorem setMode_raises (m : Mode) (s : State) : Raises (ModeError m) (setMode m s) := by
  intro e t k
  cases h : s.xferBusy with
  | true =>
    rw [setMode_busy h] at k
    cases k
    exact .inl rfl
  | false =>
    obtain ⟨he, _, hmirror⟩ := setMode_err h k
    exact .inr ⟨he, hmirror⟩

theorem setHighPower_raises (s : State) : Raises BusError (setHighPower s) :=
  (rmw_raises _ _ _ s).bind fun _ t _ => rmw_raises _ _ _ t

theorem writeBwReg_raises (a : Addr) (p : Nat × Nat) (s : State) : Raises BusError (writeBwReg a p s) := by
  unfold writeBwReg
  split
  · exact rmw_raises _ _ _ s
  · exact regWrite_raises _ _ s

theorem writeRxBw_raises (p : Nat × Nat) (s : State) : Raises BusError (writeRxBw p s) := by
  refine (writeBwReg_raises _ p s).bind fun _ t _ => ?_
  split
  · exact writeBwReg_raises _ p t
  · exact .ok _ _

theorem writeBitRate_raises (rc : RadioConfig) (s : State) : Raises BusError (writeBitRate rc s) := by
  unfold writeBitRate
  split
  · exact regWrite_raises _ _ s
  · exact .ok _ _

theorem BusError.config {c : Config} {rc : RadioConfig} {e : CmdError} {t : State} (h : BusError e t) : ConfigError c rc e t :=
  .inl (.inl h)

theorem searchAndWriteBw_raises (rc : RadioConfig) (s : State) : Raises (ConfigError s.cfg rc) (searchAndWriteBw rc s) := by
  unfold searchAndWriteBw
  split
  · next hnone => exact .err (.inr ⟨rfl, hnone⟩)
  · exact (writeRxBw_raises _ s).mono fun _ _ => BusError.config

theorem writeDeviation_raises (rc : RadioConfig) (s : State) : Raises (ConfigError s.cfg rc) (writeDeviation rc s) := by
  unfold writeDeviation
  split
  · refine ((regWrite_raises _ _ s).mono fun _ _ => BusError.config).bind fun _ t ht => ?_
    rw [← (regWrite_ok ht).1.cfg]
    exact searchAndWriteBw_raises rc t
  · exact .ok _ _

theorem setConfig_raises (rc : RadioConfig) (s : State) : Raises (ConfigError s.cfg rc) (setConfig rc s) := by
  refine ((setMode_raises .standby s).mono fun _ _ => Or.inl).bind fun _ t ht => ?_
  rw [← ((setMode_bus .standby s).continues_of_ok ht).cfg]
  refine ((regWrite_raises _ _ t).mono fun _ _ => BusError.config).bind fun _ u hu => ?_
  rw [← (regWrite_ok hu).1.cfg]
  refine ((regWrite_raises _ _ u).mono fun _ _ => BusError.config).bind fun _ v hv => ?_
  rw [← (regWrite_ok hv).1.cfg]
  refine ((writeBitRate_raises rc v).mono fun _ _ => BusError.config).bind fun _ w hw => ?_
  rw [← (writeBitRate_ok hw).1.cfg]
  exact writeDeviation_raises rc w

theorem setFraming_raises (fc : FramingConfig) (s : State) : Raises BusError (setFraming fc s) := by
  refine (regWrite_raises _ _ s).bind fun _ t _ => (regWrite_raises _ _ t).bind fun _ u _ =>
    (regWrite_raises _ _ u).bind fun _ v _ => ?_
  cases fc.syncWord with
  | none => exact regWrite_raises _ _ v
  | some bytes => exact (regWrite_raises _ _ v).bind fun _ w _ => regWrite_raises _ _ w

theorem sendFraming_raises (s : State) : Raises BusError (sendFraming s) := by
  unfold sendFraming
  split
  · exact .ok _ _
  · exact setFraming_raises _ s

theorem BusError.transmit {e : CmdError} {t : State} (h : BusError e t) : TransmitError e t := .inl (.inl h)

theorem poll_raises (reg : Addr) (flag : Byte → Bool) (limit period t0 n : Nat) (s : State) :
    Raises BusError (poll reg flag limit period t0 n s) := by
  induction n generalizing s with
  | zero => exact .ok _ _
  | succ n ih =>
    refine (regRead_raises reg s).bind fun v t _ => ?_
    split
    · exact .ok _ _
    · split
      · exact .ok _ _
      · exact ih _

/-- R114: whatever ends the STANDBY restore but a transfer in flight, the error is the transmit time-out's. -/
theorem txTimeout_raises (s : State) : Raises TransmitError (txTimeout s) := by
  unfold txTimeout
  split
  · split
    · exact .err (.inr (.inr rfl))
    · exact .err (.inr (.inr rfl))
    · next hset => exact .err (.inl (setMode_raises .standby s _ _ hset))
  · exact .err (.inr (.inr rfl))

theorem pollPacketSent_raises (s : State) : Raises TransmitError (pollPacketSent s) := by
  refine ((poll_raises _ _ _ _ _ _ s).mono fun _ _ => BusError.transmit).bind fun seen t _ => ?_
  cases seen with
  | true => exact .ok _ _
  | false => exact txTimeout_raises t

theorem pushPreamble_raises (pre : Option (List Byte)) (s : State) : Raises BusError (pushPreamble pre s) := by
  unfold pushPreamble
  split
  · exact .ok _ _
  · exact regWrite_raises _ _ s

theorem transmit_raises (pre : Option (List Byte)) (payload : List Byte) (s : State) :
    Raises TransmitError (transmit pre payload s) :=
  ((setMode_raises .standby s).mono fun _ _ => Or.inl).bind fun _ t _ =>
    ((pushPreamble_raises pre t).mono fun _ _ => BusError.transmit).bind fun _ u _ =>
      ((regWrite_raises _ _ u).mono fun _ _ => BusError.transmit).bind fun _ v _ =>
        ((setMode_raises .tx v).mono fun _ _ h => Or.inr (.inl h)).bind fun _ w _ =>
          (pollPacketSent_raises w).bind fun _ x _ => (setMode_raises .standby x).mono fun _ _ => Or.inl

theorem transmitTimes_raises (pre : Option (List Byte)) (payload : List Byte) (n : Nat) (s : State) :
    Raises TransmitError (transmitTimes pre payload n s) := by
  induction n generalizing s with
  | zero => exact .ok _ _
  | succ n ih => exact (transmit_raises pre payload s).bind fun _ t _ => ih t

theorem lsRepeats_raises (code : BitVec 32) (st : Option LsState) (s : State) : Raises TransmitError (lsRepeats code st s) := by
  unfold lsRepeats
  split
  · exact transmitTimes_raises _ _ _ s
  · exact transmit_raises _ _ s

/-- R94: INIT's identification raises the hardware error with a value that is not the expected one. -/
theorem identify_raises (n : Nat) (s : State) : Raises
    (fun e t => BusError e t ∨ ∃ v, e = .hardwareInit v ∧ v ≠ s.cfg.versionExpected) (identify n s) := by
  induction n generalizing s with
  | zero =>
    refine ((regRead_raises _ s).mono fun _ _ => Or.inl).bind fun v t ht => ?_
    split
    · exact .ok _ _
    · next hv =>
      rw [((regRead_bus _ s).continues_of_ok ht).cfg] at hv
      exact .err (.inr ⟨v, rfl, hv⟩)
  | succ n ih =>
    refine ((regRead_raises _ s).mono fun _ _ => Or.inl).bind fun v t ht => ?_
    split
    · exact .ok _ _
    · have hcfg : t.cfg = s.cfg := ((regRead_bus _ s).continues_of_ok ht).cfg
      simpa only [wait_cfg, hcfg] using ih (wait t.cfg.tIdRetry t)

/-! ## Errors of a command -/

/-- The errors a command can end with under the parameters `c`, and what is known of the state then. -/
def CommandError (c : Config) (i : Instr) (e : CmdError) (t : State) : Prop :=
  match i with
  | .init => BusError e t ∨ ∃ v, e = .hardwareInit v ∧ v ≠ c.versionExpected
  | .setMode m => ModeError m e t
  | .setConfig rc => ConfigError c rc e t
  | .transmit _ _ => TransmitError e t
  | .evSend _ => ConfigError c (evConfig c) e t ∨ TransmitError e t
  | .lsSend _ _ => ConfigError c (lsConfig c) e t ∨ TransmitError e t
  | _ => BusError e t

/-- A command whose outcome is an error was admitted, and its rule raised that error. -/
theorem command_raised {i : Instr} {ch : Option Reason} {body : State → Res CmdResult} {s t : State} {e : CmdError}
    (h : command i ch body s = .next t) (hr : t.replies = s.replies ++ [.error e]) :
    ch = none ∧ ∃ u, body (startCommand s) = .err e u ∧ t = endOnError s.phase e u := by
  cases ha : admission i ch s with
  | some reason =>
    rw [command_refused ha] at h
    cases h
    cases List.append_inj_right' hr rfl
  | none =>
    rw [command_admitted ha] at h
    obtain ⟨_, _, hch⟩ := admission_eq_none.1 ha
    cases hb : body (startCommand s) with
    | ok r u =>
      rw [hb] at h
      cases h
      cases List.append_inj_right' hr rfl
    | err e' u =>
      rw [hb] at h
      cases h
      cases List.append_inj_right' hr rfl
      exact ⟨hch, u, rfl, rfl⟩

/-- What every error of the rule satisfies holds of the error the command ends on. -/
theorem command_error {P : CmdError → State → Prop} {i : Instr} {ch : Option Reason} {body : State → Res CmdResult}
    {s t : State} {e : CmdError} (h : command i ch body s = .next t) (hr : t.replies = s.replies ++ [.error e])
    (hbody : Raises P (body (startCommand s))) : ∃ u, P e u ∧ t = endOnError s.phase e u := by
  obtain ⟨_, u, hu, ht⟩ := command_raised h hr
  exact ⟨u, hbody e u hu, ht⟩

theorem Raises.done {α : Type} {P : CmdError → State → Prop} {r : Res α} {f : α → State → CmdResult} (h : Raises P r) :
    Raises P (r.bind fun a s => Res.ok (f a s) s) := h.bind fun _ _ _ => .ok _ _

theorem exec_raised {i : Instr} {s t : State} {e : CmdError} (h : exec i s = .next t)
    (hr : t.replies = s.replies ++ [.error e]) : ∃ u, CommandError s.cfg i e u ∧ t = endOnError s.phase e u := by
  have config : ∀ rc, Raises (ConfigError s.cfg rc) (setConfig rc (startCommand s)) := fun rc =>
    setConfig_raises rc (startCommand s)
  cases i with
  | regRead a => exact command_error h hr (regRead_raises _ _).done
  | regWrite a data => exact command_error h hr (regWrite_raises _ _ _).done
  | init => exact command_error h hr (identify_raises _ (clearOnInit (resetPulse (startCommand s)))).done
  | setMode m => exact command_error h hr (setMode_raises m _).done
  | setConfig rc => exact command_error h hr (config rc).done
  | setFraming fc => exact command_error h hr (setFraming_raises fc _).done
  | setHighPower => exact command_error h hr (setHighPower_raises _).done
  | transmit pre payload => exact command_error h hr (transmit_raises pre payload _).done
  | available => exact command_error h hr (regRead_raises _ _).done
  | readByte => exact command_error h hr (regRead_raises _ _).done
  | evEncode | lsEncode | evDecode | lsDecode => exact command_error h hr (.ok _ _)
  | evSend code =>
    exact command_error (P := fun e t => ConfigError s.cfg (evConfig s.cfg) e t ∨ TransmitError e t) h hr
      (((config _).mono fun _ _ => Or.inl).bind fun _ t _ =>
        ((sendFraming_raises t).mono fun _ _ h => Or.inr h.transmit).bind fun _ u _ =>
          ((transmit_raises _ _ u).mono fun _ _ => Or.inr).done)
  | lsSend code st =>
    exact command_error (P := fun e t => ConfigError s.cfg (lsConfig s.cfg) e t ∨ TransmitError e t) h hr
      (((config _).mono fun _ _ => Or.inl).bind fun _ t _ =>
        ((sendFraming_raises t).mono fun _ _ h => Or.inr h.transmit).bind fun _ u _ =>
          ((lsRepeats_raises code st u).mono fun _ _ => Or.inr).done)

/-! ## The obligations -/

theorem ModeError.mirror {m k : Mode} {t : State} (h : ModeError m (.modeTimeout k) t) : t.modeMirror = none := by
  simpa using (h.resolve_left CmdError.noConfusion).2

theorem ConfigError.mirror {c : Config} {rc : RadioConfig} {k : Mode} {t : State} (h : ConfigError c rc (.modeTimeout k) t) :
    t.modeMirror = none :=
  (h.resolve_right fun ⟨h, _⟩ => by cases h).mirror

theorem TransmitError.mirror {k : Mode} {t : State} (h : TransmitError (.modeTimeout k) t) : t.modeMirror = none := by
  rcases h with h | h | h
  · exact h.mirror
  · exact h.mirror
  · cases h

/-- R97: a mode time-out leaves the mirror UNKNOWN, from whichever command it came. -/
theorem CommandError.mirror {c : Config} {i : Instr} {k : Mode} {t : State} (h : CommandError c i (.modeTimeout k) t) :
    t.modeMirror = none := by
  cases i with
  | init => rcases h with h | ⟨_, h, _⟩ <;> cases h
  | setMode => exact ModeError.mirror h
  | setConfig => exact ConfigError.mirror h
  | transmit => exact TransmitError.mirror h
  | evSend => exact h.elim ConfigError.mirror TransmitError.mirror
  | lsSend => exact h.elim ConfigError.mirror TransmitError.mirror
  | regRead | regWrite | setFraming | setHighPower | available | readByte | evEncode | evDecode | lsEncode | lsDecode => cases h

/-- Settles O14: `endOnError` is the state R138 asks for, and every rule's mode time-out is one of `setMode`. -/
theorem errorEndsCommand : Obligations.ErrorEndsCommand := by
  refine ⟨rfl, fun e => by cases e <;> simp [CmdError.isFatal, CmdError.code, ErrorCode.number], fun i s t e h hr => ?_⟩
  obtain ⟨u, hu, hran, _⟩ := (exec_cases h).of_error hr
  obtain ⟨v, hv, hend⟩ := exec_raised h hr
  obtain ⟨hfatal, hrefused, hport, -⟩ := hran.frame
  refine ⟨by rw [hu]; rfl, by rw [hu]; exact hrefused, by rw [hu]; exact hport, by rw [hu]; exact hran.addsFrames.1,
    fun he => ?_, fun he => ?_, fun m hm => ?_⟩
  · simp [hu, he]
  · simp [hu, he, hfatal]
  · subst hm
    rw [hend]
    exact hv.mirror

/-- The bandwidth search finds nothing for an OOK target from 250000 Hz up, and for any other only from 500000 Hz up (R107). -/
theorem bandwidth_limit {fdev br : Nat} {ook : Bool} (h : bwSearch fdev br ook = none) :
    max fdev (2 * br) ≥ if ook then 250000 else 500000 :=
  (bandwidthSearchIsSmallest.2.2.2 fdev br ook).1 h

theorem bandwidth_limit_least {fdev br : Nat} {ook : Bool} (h : bwSearch fdev br ook = none) : max fdev (2 * br) ≥ 250000 := by
  refine le_trans ?_ (bandwidth_limit h)
  cases ook <;> decide

/-- HardwareInitError is INIT's alone. -/
theorem CommandError.hardwareInit {c : Config} {i : Instr} {v : Byte} {t : State} (h : CommandError c i (.hardwareInit v) t) :
    i = .init ∧ v ≠ c.versionExpected := by
  cases i <;> simp [CommandError, BusError, ModeError, ConfigError, TransmitError] at h
  exact ⟨rfl, h⟩

/-- The commands that transmit. -/
def Sends (i : Instr) : Prop :=
  (∃ pre payload, i = .transmit pre payload) ∨ (∃ code, i = .evSend code) ∨ ∃ code st, i = .lsSend code st

theorem CommandError.transmitTimeout {c : Config} {i : Instr} {t : State} (h : CommandError c i .transmitTimeout t) :
    Sends i := by
  cases i with
  | transmit pre payload => exact .inl ⟨pre, payload, rfl⟩
  | evSend code => exact .inr (.inl ⟨code, rfl⟩)
  | lsSend code st => exact .inr (.inr ⟨code, st, rfl⟩)
  | _ => simp [CommandError, BusError, ModeError, ConfigError] at h

theorem TransmitError.modeTimeout {m : Mode} {t : State} (h : TransmitError (.modeTimeout m) t) : m = .standby ∨ m = .tx := by
  simp only [TransmitError, ModeError, CmdError.modeTimeout.injEq, reduceCtorEq, false_or, or_false] at h
  exact h.imp And.left And.left

theorem ConfigError.modeTimeout {c : Config} {rc : RadioConfig} {m : Mode} {t : State}
    (h : ConfigError c rc (.modeTimeout m) t) : m = .standby := by
  simp only [ConfigError, ModeError, CmdError.modeTimeout.injEq, reduceCtorEq, false_or, false_and, or_false] at h
  exact h.1

theorem CommandError.modeTimeout {c : Config} {i : Instr} {m : Mode} {t : State} (h : CommandError c i (.modeTimeout m) t) :
    i = .setMode m ∨ (m = .standby ∧ ∃ rc, i = .setConfig rc) ∨ ((m = .standby ∨ m = .tx) ∧ Sends i) := by
  cases i with
  | setMode k =>
    obtain ⟨hk, _⟩ := h.resolve_left CmdError.noConfusion
    cases hk
    exact .inl rfl
  | setConfig rc => exact .inr (.inl ⟨ConfigError.modeTimeout h, rc, rfl⟩)
  | transmit pre payload => exact .inr (.inr ⟨TransmitError.modeTimeout h, .inl ⟨pre, payload, rfl⟩⟩)
  | evSend code =>
    exact .inr (.inr ⟨h.elim (fun h => .inl h.modeTimeout) TransmitError.modeTimeout, .inr (.inl ⟨code, rfl⟩)⟩)
  | lsSend code st =>
    exact .inr (.inr ⟨h.elim (fun h => .inl h.modeTimeout) TransmitError.modeTimeout, .inr (.inr ⟨code, st, rfl⟩)⟩)
  | _ => simp [CommandError, BusError] at h

theorem ConfigError.bandwidthRange {c : Config} {rc : RadioConfig} {target : Nat} {t : State}
    (h : ConfigError c rc (.bandwidthRange target) t) : target = max rc.freqDeviationHz (2 * rc.bitRateBps) ∧
      bwSearch rc.freqDeviationHz rc.bitRateBps (isOok c rc.modulationFlags) = none := by
  simpa [ConfigError, ModeError, bwTarget] using h

theorem not_transmitError_bandwidthRange {target : Nat} {t : State} : ¬ TransmitError (.bandwidthRange target) t := by
  simp [TransmitError, ModeError]

theorem CommandError.bandwidthRange {c : Config} {i : Instr} {target : Nat} {t : State}
    (h : CommandError c i (.bandwidthRange target) t) :
    (∃ rc, i = .setConfig rc ∧ target = max rc.freqDeviationHz (2 * rc.bitRateBps) ∧
      target ≥ if isOok c rc.modulationFlags then 250000 else 500000) ∨
    (∃ code, i = .evSend code ∧ target = max 50000 (2 * c.evBitrateBps) ∧ target ≥ 250000) ∨
    (∃ code st, i = .lsSend code st ∧ target = max 50000 (2 * c.lsBitrateBps) ∧ target ≥ 250000) := by
  cases i with
  | setConfig rc =>
    obtain ⟨rfl, hsearch⟩ := ConfigError.bandwidthRange h
    exact .inl ⟨rc, rfl, rfl, bandwidth_limit hsearch⟩
  | evSend code =>
    obtain ⟨rfl, hsearch⟩ := (h.resolve_right not_transmitError_bandwidthRange).bandwidthRange
    exact .inr (.inl ⟨code, rfl, rfl, bandwidth_limit_least hsearch⟩)
  | lsSend code st =>
    obtain ⟨rfl, hsearch⟩ := (h.resolve_right not_transmitError_bandwidthRange).bandwidthRange
    exact .inr (.inr ⟨code, st, rfl, rfl, bandwidth_limit_least hsearch⟩)
  | transmit pre payload => exact absurd h not_transmitError_bandwidthRange
  | _ => simp [CommandError, BusError, ModeError] at h

/-- Settles O13: each error by the rules that raise it; the transfer's is excluded while no transfer is in flight. -/
theorem errorsByCommand : Obligations.ErrorsByCommand := by
  intro i s t e hidle h hr
  obtain ⟨_, _, _, may⟩ := (exec_cases h).of_error hr
  obtain ⟨u, hu, _⟩ := exec_raised h hr
  cases e with
  | hardwareInit v => exact hu.hardwareInit
  | modeTimeout m => exact hu.modeTimeout
  | transmitTimeout => exact hu.transmitTimeout
  | bandwidthRange target => exact hu.bandwidthRange
  | concurrentTransfer =>
    rcases mayRaise_iff.1 (may hidle) with ⟨_, v, hv⟩ | ⟨_, hfatal⟩
    · cases hv
    · cases hfatal

/-! ## The STANDBY change that begins four of the rules -/

/-- Settles O39: the four rules begin with `setMode .standby`, whose error ends each with the same state. -/
theorem standbyTimeoutEndsEarly : Obligations.StandbyTimeoutEndsEarly := by
  intro s u hready h hr
  obtain ⟨_, v, hbody, rfl⟩ := command_raised h hr
  have hset : setMode .standby (startCommand s) = .err (.modeTimeout .standby) v := by
    rcases Res.bind_eq_err hbody with hset | ⟨_, _, _, hdone⟩
    · exact hset
    · cases hdone
  have config : ∀ rc, setConfig rc (startCommand s) = .err (.modeTimeout .standby) v := fun rc => by
    rw [setConfig, hset, Res.bind_err]
  have ends : ∀ {i ch body}, Instr.wf i = true → ch = none → body (startCommand s) = .err (.modeTimeout .standby) v →
      command i ch body s = .next (endOnError s.phase (.modeTimeout .standby) v) := fun hwf hch hrun => by
    rw [command_admitted ((admission_ready hready.1 hwf).trans hch), hrun]
    rfl
  refine ⟨fun rc hwf hch => ends hwf hch ?_, fun pre payload hwf hch => ends hwf hch ?_, fun code hch => ends rfl hch ?_,
    fun code st hch => ends rfl hch ?_⟩
  · rw [config, Res.bind_err]
  · rw [transmit, hset, Res.bind_err, Res.bind_err]
  · rw [config, Res.bind_err]
  · rw [config, Res.bind_err]

/-! ## The transmit time-out (R113, R114) -/

/-- A poll does not touch the mirror. -/
theorem poll_modeMirror {reg : Addr} {flag : Byte → Bool} {limit period t0 n : Nat} {s t : State} {seen : Bool}
    (h : poll reg flag limit period t0 n s = .ok seen t) : t.modeMirror = s.modeMirror := by
  induction n generalizing s with
  | zero => cases h; rfl
  | succ n ih =>
    unfold poll at h
    obtain ⟨v, u, hread, h⟩ := Res.bind_eq_ok h
    have hu : u.modeMirror = s.modeMirror := by
      unfold regRead at hread
      split at hread <;> cases hread
      rfl
    split at h
    · cases h; exact hu
    · split at h
      · cases h; exact hu
      · exact (ih h).trans hu

theorem Bus.of_ok {α : Type} {r : Res α} {a : α} {s t : State} (h : Bus s r.state) (k : r = .ok a t) : Bus s t := by
  rw [k] at h
  exact h

theorem Bus.of_err {α : Type} {r : Res α} {e : CmdError} {s t : State} (h : Bus s r.state) (k : r = .err e t) : Bus s t := by
  rw [k] at h
  exact h

/-- What the transmit time-out leaves: the mirror as it was where STANDBY is not restored. -/
theorem txTimeout_mirror {s t : State} {e : CmdError} (h : txTimeout s = .err e t) :
    (s.cfg.txTimeoutRestoresStandby = false → t.modeMirror = s.modeMirror) ∧
    (s.cfg.txTimeoutRestoresStandby = true → e = .transmitTimeout → t.modeMirror = some .standby ∨ t.modeMirror = none) := by
  unfold txTimeout at h
  split at h
  · next hrestore =>
    refine ⟨fun hno => absurd hrestore (by simp [hno]), fun _ he => ?_⟩
    split at h
    · next hset =>
      cases h
      exact .inl (setMode_ok hset)
    · next hset =>
      cases h
      exact .inr (setMode_raises .standby s _ _ hset).mirror
    · next hset =>
      cases h
      subst he
      rcases setMode_raises .standby s _ _ hset with hset | ⟨hset, _⟩ <;> cases hset
  · next hrestore =>
    cases h
    exact ⟨fun _ => rfl, fun hyes => absurd hyes hrestore⟩

/-- The packet poll gives up no earlier than `T_TX_TIMEOUT` after it began. -/
theorem pollPacketSent_timeout {s t : State} (h : pollPacketSent s = .err .transmitTimeout t) :
    s.now + tTxTimeout ≤ t.now ∧ (s.cfg.txTimeoutRestoresStandby = false → t.modeMirror = s.modeMirror) ∧
    (s.cfg.txTimeoutRestoresStandby = true → t.modeMirror = some .standby ∨ t.modeMirror = none) := by
  rcases Res.bind_eq_err h with h | ⟨seen, u, hpoll, h⟩
  · cases poll_raises _ _ _ _ _ _ _ _ _ h
  cases seen with
  | true => cases h
  | false =>
    have hbus : Bus s u := (poll_bus _ _ _ _ _ _ s).of_ok hpoll
    have hlater : u.now ≤ t.now := ((txTimeout_bus u).of_err h).now_le
    have hallow := pollReads_allow tTxTimeout s.cfg.tTxPoll.us (Nat.succ_pos _)
    have hexpired : tTxTimeout ≤ u.now - s.now :=
      poll_expired (n := pollReads tTxTimeout s.cfg.tTxPoll.us - 1) (Nat.le_refl _) (by simpa using hallow) hpoll
    obtain ⟨hkeep, hrestore⟩ := txTimeout_mirror h
    rw [hbus.cfg, poll_modeMirror hpoll] at hkeep
    rw [hbus.cfg] at hrestore
    exact ⟨by have := hbus.now_le; omega, hkeep, fun hyes => hrestore hyes rfl⟩

theorem not_modeError_transmitTimeout {m : Mode} {t : State} : ¬ ModeError m .transmitTimeout t := by
  simp [ModeError]

/-- A TRANSMIT that times out does so in its packet poll, after the mirror was set to TX. -/
theorem transmit_timeout {pre : Option (List Byte)} {payload : List Byte} {s t : State} (hp : payload ≠ [])
    (h : transmit pre payload s = .err .transmitTimeout t) :
    s.now + tTxTimeout ≤ t.now ∧ (s.cfg.txTimeoutRestoresStandby = false → t.modeMirror = some .tx) ∧
    (s.cfg.txTimeoutRestoresStandby = true → t.modeMirror = some .standby ∨ t.modeMirror = none) := by
  rcases Res.bind_eq_err h with h | ⟨_, u, hu, h⟩
  · exact absurd (setMode_raises _ _ _ _ h) not_modeError_transmitTimeout
  rcases Res.bind_eq_err h with h | ⟨_, v, hv, h⟩
  · cases pushPreamble_raises _ _ _ _ h
  rcases Res.bind_eq_err h with h | ⟨_, w, hw, h⟩
  · cases regWrite_raises _ _ _ _ _ h
  rcases Res.bind_eq_err h with h | ⟨_, x, hx, h⟩
  · exact absurd (setMode_raises _ _ _ _ h) not_modeError_transmitTimeout
  rcases Res.bind_eq_err h with h | ⟨_, y, _, h⟩
  · have hbus : Bus s x := ((((setMode_bus _ s).of_ok hu).trans ((pushPreamble_bus pre u).of_ok hv)).trans
      ((regWrite_bus hp (by simp [burstFits])).of_ok hw)).trans ((setMode_bus _ w).of_ok hx)
    obtain ⟨hnow, hkeep, hrestore⟩ := pollPacketSent_timeout h
    rw [hbus.cfg, setMode_ok hx] at hkeep
    rw [hbus.cfg] at hrestore
    exact ⟨by have := hbus.now_le; omega, hkeep, hrestore⟩
  · exact absurd (setMode_raises _ _ _ _ h) not_modeError_transmitTimeout

/-- Settles O43: the time-out is the packet poll's, whose deadline had passed. -/
theorem transmitTimeoutEnds : Obligations.TransmitTimeoutEnds := by
  intro s t pre payload hready h hr
  obtain ⟨hch, u, hbody, rfl⟩ := command_raised h hr
  have hp : payload ≠ [] := transmitRefusal_none hch
  rcases Res.bind_eq_err hbody with hrun | ⟨_, _, _, hdone⟩
  · have hbus : Bus (startCommand s) u := (transmit_bus hp).of_err hrun
    have htimeout := transmit_timeout hp hrun
    exact ⟨hready.1, hbus.frame.fatal, hbus.xferBusy.trans hready.2, htimeout⟩
  · cases hdone

end Sys2Proof.Machine
end

section
/-! PROOF. Rules that complete (40_spi.md, 41_driver_control.md, 42_driver_config.md, 43_transmit.md): a `Script` says what a
stretch of a rule has done, step by step, and what answers it has read. Scripts compose as the rules do. -/

namespace Sys2Proof.Machine

/-! ## Scripts -/

/-- A step that is a transfer. -/
def Op.isTransfer : Op → Bool
  | .read _ _ => true
  | .write _ _ => true
  | .wait _ => false
  | .line _ => false

/-- `t` comes from `s` on the bus by the steps `ops`, and the radio has used up the answers `vs` if they were laid down. -/
structure Script (s t : State) (ops : List Op) (vs : List Byte) : Prop where
  bus       : Bus s t
  described : ∃ es, t.trace = s.trace ++ es ∧ Described ops es
  nssHigh   : ops.any Op.isTransfer = true → t.nssOut = .high
  answers   : ∀ ws, Answers s (vs ++ ws) → Answers t ws

theorem Described.append {ops ops' : List Op} {es fs : List Event} (h : Described ops es) (k : Described ops' fs) :
    Described (ops ++ ops') (es ++ fs) := List.rel_append h k

theorem Described.one {o : Op} {e : Event} (h : o.describes e) : Described [o] [e] := .cons h .nil

theorem Op.describes.sent_length {o : Op} {e : Event} (h : o.describes e) (es : List Event) :
    (sent (e :: es)).length = (sent es).length + if o.isTransfer = true then 1 else 0 := by
  cases o with
  | read | write =>
    cases e with
    | transfer => rfl
    | resetLine | wait => exact h.elim
  | wait =>
    cases e with
    | wait => rfl
    | transfer | resetLine => exact h.elim
  | line =>
    cases e with
    | resetLine => rfl
    | transfer | wait => exact h.elim

theorem Described.transferCount {ops : List Op} {es : List Event} (h : Described ops es) :
    transferCount es = ops.countP Op.isTransfer := by
  induction h with
  | nil => rfl
  | @cons o e ops es ho _ ih =>
    rw [Machine.transferCount] at ih ⊢
    rw [ho.sent_length, ih, List.countP_cons]

theorem Script.refl (s : State) : Script s s [] [] :=
  ⟨.refl, ⟨[], (List.append_nil _).symm, .nil⟩, fun h => by simp at h, fun _ h => h⟩

theorem Script.trans {s t u : State} {ops ops' : List Op} {vs vs' : List Byte} (h : Script s t ops vs)
    (k : Script t u ops' vs') : Script s u (ops ++ ops') (vs ++ vs') where
  bus := h.bus.trans k.bus
  described := by
    obtain ⟨es, ht, he⟩ := h.described
    obtain ⟨fs, hu, hf⟩ := k.described
    exact ⟨es ++ fs, by rw [hu, ht, List.append_assoc], he.append hf⟩
  nssHigh := fun hops => by
    rw [List.any_append, Bool.or_eq_true] at hops
    exact hops.elim (fun hops => k.bus.nssHigh (h.nssHigh hops)) k.nssHigh
  answers := fun ws hs => k.answers ws (h.answers _ (by rwa [List.append_assoc] at hs))

theorem Script.cfg {s t : State} {ops : List Op} {vs : List Byte} (h : Script s t ops vs) : t.cfg = s.cfg := h.bus.cfg

theorem Script.idle {s t : State} {ops : List Op} {vs : List Byte} (h : Script s t ops vs) (hs : s.xferBusy = false) :
    t.xferBusy = false := h.bus.xferBusy.trans hs

/-- A laid-down answer is the one a read gets. -/
theorem radioReply_of_answers {s : State} {v : Byte} {ws : List Byte} (a : Addr) (h : Answers s (v :: ws)) :
    radioReply a s = v := by
  obtain ⟨hkind, rest, hanswers⟩ := h
  simp [radioReply, hkind, hanswers]

theorem afterRead_answers {s : State} {v : Byte} {ws : List Byte} (a : Addr) (h : Answers s (v :: ws)) :
    Answers (afterRead a s) ws := by
  obtain ⟨hkind, rest, hanswers⟩ := h
  exact ⟨by simp [Radio.afterRead, hkind], rest, by simp [Radio.afterRead, hkind, hanswers]⟩

theorem afterWrite_answers {s : State} {ws : List Byte} (a : Addr) (d : List Byte) (h : Answers s ws) :
    Answers (afterWrite a d s) ws := by
  obtain ⟨hkind, rest, hanswers⟩ := h
  exact ⟨by simp [Radio.afterWrite, hkind], rest, by simp [Radio.afterWrite, hkind, hanswers]⟩

/-- R64: a read is one read frame, whatever the radio answers. -/
theorem script_read {s : State} (h : s.xferBusy = false) (a : Addr) :
    Script s (afterRead a s) [.read a (radioReply a s)] [radioReply a s] :=
  ⟨.read a .refl h, ⟨_, rfl, .one ⟨rfl, _, rfl⟩⟩, fun _ => rfl, fun _ => afterRead_answers a⟩

/-- R65: a write is one write frame. -/
theorem script_write {s : State} (h : s.xferBusy = false) {a : Addr} {d : List Byte} (hd : d ≠ [])
    (hf : burstFits s.cfg a d.length = true) : Script s (afterWrite a d s) [.write a d] [] :=
  ⟨.write a d .refl h hd hf, ⟨_, rfl, .one ⟨rfl, by simp [writeMiso]⟩⟩, fun _ => rfl, fun _ => afterWrite_answers a d⟩

theorem script_wait (s : State) (n : Nat) : Script s (wait n s) [.wait n] [] :=
  ⟨.wait n .refl, ⟨_, rfl, .one rfl⟩, fun h => by simp [Op.isTransfer] at h, fun _ h => h⟩

theorem script_mirror (s : State) (m : Option Mode) : Script s (setMirror m s) [] [] :=
  ⟨.mirror m .refl, ⟨[], (List.append_nil _).symm, .nil⟩, fun h => by simp at h, fun _ h => h⟩

/-- The register file is the reference radio's: an oracle's never changes. -/
theorem Bus.oracle_regs {s t : State} (h : Bus s t) (hs : s.radio.kind = .oracle) :
    t.radio.kind = .oracle ∧ t.radio.regs = s.radio.regs := by
  induction h with
  | refl => exact ⟨hs, rfl⟩
  | read a _ _ ih =>
    exact ⟨(Radio.afterRead_kind _ _ _).trans ih.1, (Radio.afterRead_regs _ _ _).trans ih.2⟩
  | write a d _ _ _ _ ih =>
    exact ⟨(Radio.afterWrite_kind _ _ _ _).trans ih.1, by simp [Radio.afterWrite, ih.1, ih.2]⟩
  | wait n _ ih => exact ih
  | mirror m _ ih => exact ih

/-! ## Commands that complete -/

theorem returned_of_bus {s t : State} {es : List Event} (hidle : s.xferBusy = false) (hbus : Bus (startCommand s) t)
    (hnss : t.nssOut = .high) (htrace : t.trace = s.trace ++ es) (r : CmdResult) :
    Returned s (endOnReturn s.phase r t) r es where
  phase := rfl
  xferBusy := hbus.xferBusy.trans hidle
  nssOut := hnss
  stepIdx := rfl
  replies := by rw [endOnReturn_replies, hbus.replies]; rfl
  trace := htrace
  frame := { hbus.frame with }

theorem raised_of_bus {s t : State} {es : List Event} {e : CmdError} (hidle : s.xferBusy = false)
    (hbus : Bus (startCommand s) t) (hnss : t.nssOut = .high) (htrace : t.trace = s.trace ++ es) (he : e.isFatal = false) :
    Raised s (endOnError s.phase e t) e es where
  phase := by simp [he]
  xferBusy := hbus.xferBusy.trans hidle
  nssOut := hnss
  stepIdx := rfl
  replies := by rw [endOnError_replies, hbus.replies]; rfl
  trace := htrace
  frame := { hbus.frame with fatal := by simp [he, hbus.frame.fatal] }

/-- A READY command whose rule has run a script with a transfer in it returns its result and leaves all else as `Returned`
says. -/
theorem command_script {i : Instr} {ch : Option Reason} {body : State → Res CmdResult} {s t : State} {r : CmdResult}
    {ops : List Op} {vs : List Byte} (hready : Ready s) (hwf : i.wf = true) (hch : ch = none) (hi : i ≠ .init)
    (hbody : body (startCommand s) = .ok r t) (hscript : Script (startCommand s) t ops vs)
    (hops : ops.any Op.isTransfer = true) :
    ∃ u es, command i ch body s = .next u ∧ Returned s u r es ∧ Described ops es ∧ u.modeMirror = t.modeMirror ∧
      u.radio = t.radio := by
  obtain ⟨es, htrace, hdescribed⟩ := hscript.described
  refine ⟨endOnReturn s.phase r t, es, ?_, returned_of_bus hready.2 hscript.bus (hscript.nssHigh hops) htrace r, hdescribed,
    rfl, rfl⟩
  rw [command_admitted ((admission_ready hready.1 hwf).trans hch), hbody, endCommand, phaseAfter_of_ne_init hi]

/-- A READY command whose rule has run a script and then raised an error that is not fatal. -/
theorem command_script_error {i : Instr} {ch : Option Reason} {body : State → Res CmdResult} {s t : State} {e : CmdError}
    {ops : List Op} {vs : List Byte} (hready : Ready s) (hwf : i.wf = true) (hch : ch = none) (he : e.isFatal = false)
    (hbody : body (startCommand s) = .err e t) (hscript : Script (startCommand s) t ops vs)
    (hops : ops.any Op.isTransfer = true) :
    ∃ u es, command i ch body s = .next u ∧ Raised s u e es ∧ Described ops es ∧ u.modeMirror = t.modeMirror ∧
      u.radio = t.radio := by
  obtain ⟨es, htrace, hdescribed⟩ := hscript.described
  refine ⟨endOnError s.phase e t, es, ?_, raised_of_bus hready.2 hscript.bus (hscript.nssHigh hops) htrace he, hdescribed,
    rfl, rfl⟩
  rw [command_admitted ((admission_ready hready.1 hwf).trans hch), hbody]
  rfl

/-- The action completes by a script, and leaves the mirror at `m`. -/
def Plays (s : State) (ops : List Op) (vs : List Byte) (m : Option Mode) (r : Res Unit) : Prop :=
  ∃ t, r = .ok () t ∧ Script s t ops vs ∧ t.modeMirror = m

theorem regWrite_plays {s : State} (h : s.xferBusy = false) {a : Addr} {d : List Byte} (hd : d ≠ [])
    (hf : burstFits s.cfg a d.length = true) : Plays s [.write a d] [] s.modeMirror (regWrite a d s) :=
  ⟨_, regWrite_idle h a d, script_write h hd hf, rfl⟩

theorem regWrite_one_plays {s : State} (h : s.xferBusy = false) (a : Addr) (v : Byte) :
    Plays s [.write a [v]] [] s.modeMirror (regWrite a [v] s) := regWrite_plays h (by simp) (burstFits_one _ _)

/-- R89: a read, then the write of the value computed from it. -/
theorem rmw_plays {s : State} (h : s.xferBusy = false) (a : Addr) (x y : Byte) :
    Plays s [.read a (radioReply a s), .write a [(radioReply a s &&& x) ||| y]] [radioReply a s] s.modeMirror (rmw a x y s) := by
  have hwrite : rmw a x y s = regWrite a [(radioReply a s &&& x) ||| y] (afterRead a s) := by
    rw [rmw, regRead_idle h, Res.bind_ok]
  obtain ⟨t, ht, hscript, hm⟩ := regWrite_one_plays (s := afterRead a s) rfl a ((radioReply a s &&& x) ||| y)
  exact ⟨t, hwrite.trans ht, (script_read h a).trans hscript, hm⟩

/-- A READY command that ends with `done` after a rule that plays a script with a transfer in it. -/
theorem command_plays {i : Instr} {ch : Option Reason} {body : State → Res CmdResult} {rule : Res Unit} {s : State}
    {ops : List Op} {vs : List Byte} {m : Option Mode} (hready : Ready s) (hwf : i.wf = true) (hch : ch = none)
    (hi : i ≠ .init) (hbody : body (startCommand s) = rule.bind fun _ s => .ok .done s)
    (hplays : Plays (startCommand s) ops vs m rule) (hops : ops.any Op.isTransfer = true) :
    ∃ t es, command i ch body s = .next t ∧ Returned s t .done es ∧ Described ops es ∧ t.modeMirror = m ∧
      (s.radio.kind = .oracle → t.radio.regs = s.radio.regs) := by
  obtain ⟨t, rfl, hscript, hm⟩ := hplays
  obtain ⟨u, es, hu, hreturned, hdescribed, hmirror, hradio⟩ := command_script hready hwf hch hi hbody hscript hops
  exact ⟨u, es, hu, hreturned, hdescribed, hmirror.trans hm, fun hkind => by
    rw [hradio]
    exact (hscript.bus.oracle_regs hkind).2⟩

/-! ## REG_READ and REG_WRITE (R87, R88) -/

theorem toNat_setWidth_seven {a : Byte} (h : a.toNat ≤ 0x7F) : (a.setWidth 7 : Addr).toNat = a.toNat := by
  rw [BitVec.toNat_setWidth]
  omega

theorem regReadRefusal_eq_none {a : Byte} (h : a.toNat ≤ 0x7F) : regReadRefusal a = none :=
  check_eq_none.2 (decide_eq_true h)

/-- The state after a REG_READ. -/
def readDone (a : Byte) (s : State) : State :=
  endOnReturn s.phase (.byte (radioReply (a.setWidth 7) s)) (afterRead (a.setWidth 7) (startCommand s))

theorem exec_regRead {s : State} {a : Byte} (hready : Ready s) (ha : a.toNat ≤ 0x7F) :
    exec (.regRead a) s = .next (readDone a s) := by
  refine (command_admitted ((admission_ready hready.1 rfl).trans (regReadRefusal_eq_none ha))).trans ?_
  rw [regRead_idle (s := startCommand s) hready.2]
  rfl

@[simp] theorem readDone_radio (a : Byte) (s : State) : (readDone a s).radio = s.radio.afterRead s.cfg (a.setWidth 7) := rfl

@[simp] theorem readDone_replies (a : Byte) (s : State) :
    (readDone a s).replies = s.replies ++ [.result (.byte (radioReply (a.setWidth 7) s))] := rfl

/-- R38: the reference radio answers what `referenceAnswer` says, where it says anything. -/
theorem radioReply_reference {s : State} {a : Addr} {v : Byte} (hkind : s.radio.kind = .reference)
    (h : referenceAnswer s.cfg s.radio a = some v) : radioReply a s = v := by
  simp [radioReply, hkind, h]

theorem radioReply_plain {s : State} {a : Byte} (hkind : s.radio.kind = .reference) (ha : a.toNat ≤ 0x7F)
    (hplain : PlainRegister s.cfg a.toNat) : radioReply (a.setWidth 7) s = s.radio.reg a.toNat := by
  have hne : ∀ r ∈ [s.cfg.regs.fifo, s.cfg.regs.version, s.cfg.regs.irqflags1, s.cfg.regs.irqflags2], a.setWidth 7 ≠ r :=
    fun r hr heq => hplain r hr (by rw [← heq, toNat_setWidth_seven ha])
  simp only [List.forall_mem_cons] at hne
  obtain ⟨hfifo, hversion, hirq1, hirq2, _⟩ := hne
  have hanswer := referenceAnswer_plain (c := s.cfg) (r := s.radio) hfifo hversion hirq1 hirq2
  rw [toNat_setWidth_seven ha] at hanswer
  exact radioReply_reference hkind hanswer

theorem radioReply_fifo {s : State} {x : Byte} {xs : List Byte} (hkind : s.radio.kind = .reference)
    (hfifo : s.radio.fifo = x :: xs) : radioReply s.cfg.regs.fifo s = x :=
  radioReply_reference hkind (by simp [referenceAnswer, hfifo])

theorem Radio.afterRead_fifo {c : Config} {r : Radio} {x : Byte} {xs : List Byte} (hkind : r.kind = .reference)
    (hfifo : r.fifo = x :: xs) : (r.afterRead c c.regs.fifo).fifo = xs := by
  simp [Radio.afterRead, hkind, hfifo]

/-- Settles O15: REG_READ is one read of the register its operand names. -/
theorem regReadReturnsAnswer : Obligations.RegReadReturnsAnswer := by
  intro s a hready ha
  obtain ⟨t, es, ht, hreturned, hdescribed, hmirror, _⟩ := command_script (i := .regRead a)
    (body := fun s => (regRead (a.setWidth 7) s).bind fun v s => .ok (.byte v) s) hready rfl (regReadRefusal_eq_none ha)
    Instr.noConfusion (by rw [regRead_idle (s := startCommand s) hready.2]; rfl)
    (script_read (s := startCommand s) hready.2 (a.setWidth 7)) rfl
  obtain rfl : readDone a s = t := by injection (exec_regRead hready ha).symm.trans ht
  refine ⟨_, es, _, ht, hreturned, hdescribed, hmirror, Radio.afterRead_kind _ _ _, fun b => by simp [Radio.afterRead_regs],
    fun hkind x xs hanswers => ?_, fun hkind x xs hport hfifo => ?_, fun hkind hport => ?_, fun hkind hplain => ?_,
    fun hkind hversion hne => ?_⟩
  · have hlaid : Answers s (x :: xs) := ⟨hkind, [], by simp [hanswers]⟩
    exact ⟨radioReply_of_answers _ hlaid, by simp [Radio.afterRead, hkind, hanswers]⟩
  · rw [readDone_radio, hport]
    exact ⟨radioReply_fifo (s := startCommand s) hkind hfifo, Radio.afterRead_fifo hkind hfifo⟩
  · simp [Radio.afterRead, hkind, hport]
  · exact radioReply_plain (s := startCommand s) hkind ha hplain
  · exact radioReply_reference (s := startCommand s) hkind (by simp [referenceAnswer, hversion, hne])

theorem regWriteRefusal_eq_none {c : Config} {a : Byte} {data : List Byte} (ha : a.toNat ≤ 0x7F) (hd : data ≠ [])
    (hf : burstFits c (a.setWidth 7) data.length = true) : regWriteRefusal c a data = none := by
  simp [regWriteRefusal, addrInRange, ha, hd, hf]

/-- The state after a REG_WRITE. -/
def writeDone (a : Byte) (data : List Byte) (s : State) : State :=
  endOnReturn s.phase .done (afterWrite (a.setWidth 7) data (startCommand s))

@[simp] theorem writeDone_radio (a : Byte) (data : List Byte) (s : State) :
    (writeDone a data s).radio = s.radio.afterWrite s.cfg (a.setWidth 7) data := rfl

theorem regWrite_body_idle {s : State} (h : s.xferBusy = false) (a : Addr) (data : List Byte) :
    ((regWrite a data s).bind fun _ s => Res.ok CmdResult.done s) = .ok .done (afterWrite a data s) := by
  rw [regWrite_idle h, Res.bind_ok]

theorem regWrite_wf {a : Byte} {data : List Byte} (hmin : 1 ≤ data.length) (hmax : data.length ≤ 255) :
    (Instr.regWrite a data).wf = true := by
  simp [Instr.wf, hmin, hmax]

theorem exec_regWrite {s : State} {a : Byte} {data : List Byte} (hready : Ready s) (ha : a.toNat ≤ 0x7F)
    (hmin : 1 ≤ data.length) (hmax : data.length ≤ 255) (hf : burstFits s.cfg (a.setWidth 7) data.length = true) :
    exec (.regWrite a data) s = .next (writeDone a data s) := by
  have hch := regWriteRefusal_eq_none ha (List.length_pos_iff.1 hmin) hf
  refine (command_admitted ((admission_ready hready.1 (regWrite_wf hmin hmax)).trans hch)).trans ?_
  rw [regWrite_body_idle (s := startCommand s) hready.2]
  rfl

/-- The reference radio after a write away from its FIFO port. -/
theorem Radio.afterWrite_reference {c : Config} {a : Addr} {data : List Byte} {r : Radio} (hkind : r.kind = .reference)
    (ha : a ≠ c.regs.fifo) : r.afterWrite c a data = { r with
      regs := Memory.putBytes a.toNat data r.regs
      fifo := if asksTx c a data then [] else r.fifo } := by
  simp [Radio.afterWrite, hkind, ha]

/-- R47: the bytes of a burst land at rising addresses. -/
theorem Radio.get_afterWrite_inside {c : Config} {a : Addr} {data : List Byte} {r : Radio} (hkind : r.kind = .reference)
    (ha : a ≠ c.regs.fifo) (hwf : Memory.wf r.regs = true) (hfit : a.toNat + data.length ≤ 0x80) {k : Nat}
    (hk : k < data.length) : Memory.get (a.toNat + k) (r.afterWrite c a data).regs = data[k]? := by
  rw [Radio.afterWrite_reference hkind ha, List.getElem?_eq_getElem hk]
  exact Memory.get_putBytes_inside hwf hk hfit

/-- Settles O18: REG_WRITE is one write of its bytes, and the reference radio takes them. -/
theorem regWriteSendsFrame : Obligations.RegWriteSendsFrame := by
  intro s a data hready ha hmin hmax hfits
  have haddr := toNat_setWidth_seven ha
  have hd : data ≠ [] := List.length_pos_iff.1 hmin
  have hf : burstFits s.cfg (a.setWidth 7) data.length = true := burstFits_iff.2 (by rwa [haddr])
  obtain ⟨t, es, ht, hreturned, hdescribed, hmirror, _⟩ := command_script (i := .regWrite a data)
    (body := fun s => (regWrite (a.setWidth 7) data s).bind fun _ s => .ok .done s) hready (regWrite_wf hmin hmax)
    (regWriteRefusal_eq_none ha hd hf) Instr.noConfusion (regWrite_body_idle (s := startCommand s) hready.2 _ _)
    (script_write (s := startCommand s) hready.2 hd hf) rfl
  obtain rfl : writeDone a data s = t := by injection (exec_regWrite hready ha hmin hmax hf).symm.trans ht
  refine ⟨_, es, ht, hreturned, hdescribed, hmirror, fun hkind => ?_, fun hkind hport => ?_, fun b hb => ?_,
    fun hkind hport hwf k hk => ?_, fun hkind hport => ⟨fun k v hk hv hm => ?_, fun hno => ?_⟩⟩
  · simp [Radio.afterWrite, hkind]
  · simp [Radio.afterWrite, hkind, hport]
  · exact Radio.get_afterWrite_of_outside fun _ => by rwa [haddr]
  · have hfit : a.toNat + data.length ≤ 0x80 := hfits.resolve_left hport
    rw [← haddr] at hfit ⊢
    exact Radio.get_afterWrite_inside hkind hport hwf hfit hk
  · have hasks : asksTx s.cfg (a.setWidth 7) data = true := asksTx_iff.2 ⟨k, v, by rwa [haddr], hv, hm⟩
    simp [Radio.afterWrite_reference hkind hport, hasks]
  · have hasks : asksTx s.cfg (a.setWidth 7) data = false := Bool.eq_false_iff.2 fun hasks => by
      obtain ⟨k, v, hk, hv, hm⟩ := asksTx_iff.1 hasks
      exact hno k v (by rwa [haddr] at hk) hv hm
    simp [Radio.afterWrite_reference hkind hport, hasks]

/-- Settles O23: the byte a burst put in the register file is what the next read of a plain register answers; a read changes no
register. -/
theorem referenceReadback : Obligations.ReferenceReadback := by
  refine ⟨fun s a data k hready hkind hwf hmax hk hfit hport hplain => ?_, fun s a hready hkind ha hplain => ?_⟩
  · have ha : a.toNat ≤ 0x7F := by omega
    have haddr := toNat_setWidth_seven ha
    have hsum : (a + BitVec.ofNat 8 k).toNat = a.toNat + k := by
      rw [BitVec.toNat_add, BitVec.toNat_ofNat]
      omega
    have hf : burstFits s.cfg (a.setWidth 7) data.length = true := burstFits_iff.2 (.inr (by rwa [haddr]))
    have hready' : Ready (writeDone a data s) := ⟨hready.1, rfl⟩
    have hkind' : (writeDone a data s).radio.kind = .reference := (Radio.afterWrite_kind _ _ _ _).trans hkind
    have hget : Memory.get (a.toNat + k) (writeDone a data s).radio.regs = some data[k] := by
      rw [← List.getElem?_eq_getElem hk, ← haddr]
      exact Radio.get_afterWrite_inside hkind hport hwf (by rwa [haddr]) hk
    have hread : radioReply ((a + BitVec.ofNat 8 k).setWidth 7) (writeDone a data s) = data[k] := by
      rw [radioReply_plain hkind' (by omega) (by rwa [hsum]), hsum]
      exact Radio.reg_of_get hget
    exact ⟨_, _, data[k], exec_regWrite hready ha (by omega) hmax hf, exec_regRead hready' (by omega),
      List.getElem?_eq_getElem hk, by rw [readDone_replies, hread]⟩
  · have hready' : Ready (readDone a s) := ⟨hready.1, rfl⟩
    have hkind' : (readDone a s).radio.kind = .reference := (Radio.afterRead_kind _ _ _).trans hkind
    have hsame : (readDone a s).radio.reg a.toNat = s.radio.reg a.toNat :=
      Radio.reg_congr (by rw [readDone_radio, Radio.afterRead_regs]) (Radio.afterRead_resets _ _ _)
    refine ⟨_, _, s.radio.reg a.toNat, exec_regRead hready ha, exec_regRead hready' ha, ?_, ?_⟩
    · rw [readDone_replies, radioReply_plain hkind ha hplain]
    · rw [readDone_replies, radioReply_plain hkind' ha hplain, hsame]

end Sys2Proof.Machine
end

section
/-! PROOF. INIT (41_driver_control.md section 1). -/

namespace Sys2Proof.Machine

/-! ## INIT (R93 to R95) -/

/-- The reads of R94 that mismatch, each followed by the retry wait. -/
def mismatchOps (c : Config) (bad : List Byte) : List Op :=
  bad.flatMap fun b => [.read c.regs.version b, .wait c.tIdRetry]

theorem identify_match {s : State} (h : s.xferBusy = false) (n : Nat)
    (hv : radioReply s.cfg.regs.version s = s.cfg.versionExpected) :
    identify n s = .ok () (afterRead s.cfg.regs.version s) := by
  cases n <;> simp [identify, regRead_idle h, hv]

theorem identify_mismatch {s : State} (h : s.xferBusy = false) (n : Nat)
    (hv : radioReply s.cfg.regs.version s ≠ s.cfg.versionExpected) :
    identify (n + 1) s = identify n (wait s.cfg.tIdRetry (afterRead s.cfg.regs.version s)) := by
  simp [identify, regRead_idle h, hv]

theorem identify_last_mismatch {s : State} (h : s.xferBusy = false)
    (hv : radioReply s.cfg.regs.version s ≠ s.cfg.versionExpected) :
    identify 0 s = .err (.hardwareInit (radioReply s.cfg.regs.version s)) (afterRead s.cfg.regs.version s) := by
  simp [identify, regRead_idle h, hv]

/-- One attempt that mismatches: a read and the retry wait, after which the remaining attempts go on. -/
theorem identify_attempt {s : State} {b : Byte} {ws : List Byte} (h : s.xferBusy = false) (hb : b ≠ s.cfg.versionExpected)
    (hs : Answers s (b :: ws)) (n : Nat) :
    ∃ t, identify (n + 1) s = identify n t ∧ Script s t (mismatchOps s.cfg [b]) [b] := by
  have hreply := radioReply_of_answers s.cfg.regs.version hs
  refine ⟨_, identify_mismatch h n (by rwa [hreply]), ?_⟩
  have hread := script_read h s.cfg.regs.version
  rw [hreply] at hread
  exact hread.trans (script_wait _ _)

/-- R94: with mismatches and then the expected value within the attempts, identification reads them in turn. -/
theorem identify_completes {bad : List Byte} {n : Nat} {s : State} (h : s.xferBusy = false) (hn : bad.length ≤ n)
    (hbad : s.cfg.versionExpected ∉ bad) (hs : Answers s (bad ++ [s.cfg.versionExpected])) :
    ∃ t, identify n s = .ok () t ∧
      Script s t (mismatchOps s.cfg bad ++ [.read s.cfg.regs.version s.cfg.versionExpected]) (bad ++ [s.cfg.versionExpected]) := by
  induction bad generalizing n s with
  | nil =>
    have hreply := radioReply_of_answers s.cfg.regs.version hs
    have hread := script_read h s.cfg.regs.version
    rw [hreply] at hread
    exact ⟨_, identify_match h n hreply, hread⟩
  | cons b bad ih =>
    obtain ⟨n, rfl⟩ : ∃ k, n = k + 1 := ⟨n - 1, by simp at hn; omega⟩
    rw [List.mem_cons, not_or] at hbad
    obtain ⟨t, ht, hscript⟩ := identify_attempt h (Ne.symm hbad.1) hs n
    rw [← hscript.cfg] at hbad
    obtain ⟨u, hu, hrest⟩ := ih (hscript.idle h) (by simpa using hn) hbad.2
      (by rw [hscript.cfg]; exact hscript.answers _ hs)
    rw [hscript.cfg] at hrest
    exact ⟨u, ht.trans hu, hscript.trans hrest⟩

/-- The steps of the reset pulse (R93). -/
def pulseOps (c : Config) : List Op := [.line .high, .wait c.tResetHigh, .line .low, .wait c.tResetWait]

/-- The state in which identification begins. -/
def afterPulse (s : State) : State := clearOnInit (resetPulse (startCommand s))

theorem afterPulse_trace (s : State) : ∃ es, (afterPulse s).trace = s.trace ++ es ∧ Described (pulseOps s.cfg) es :=
  ⟨_, resetPulse_trace (startCommand s), .cons rfl (.cons rfl (.cons rfl (.cons rfl .nil)))⟩

/-- The pulse leaves an oracle radio as it is. -/
theorem afterPulse_answers {s : State} {vs : List Byte} (h : Answers s vs) : Answers (afterPulse s) vs := by
  obtain ⟨hkind, rest, hanswers⟩ := h
  have hradio : (afterPulse s).radio = s.radio := by
    show s.radio.afterReset = s.radio
    simp [Radio.afterReset, hkind]
  exact ⟨by rwa [hradio], rest, by rwa [hradio]⟩

/-- The pulse puts the registers of the reference radio back to their reset values. -/
theorem afterPulse_regs {s : State} (h : s.radio.kind = .reference) : (afterPulse s).radio.regs = [] := by
  show s.radio.afterReset.regs = []
  simp [Radio.afterReset, h]

/-- What INIT leaves of the block, whether its identification succeeded or not. -/
structure InitLeaves (s t : State) : Prop where
  modeMirror : t.modeMirror = none
  evAcc      : t.evAcc = []
  evLast     : t.evLast = none
  lsAcc      : t.lsAcc = []
  lsLast     : t.lsLast = none
  resetOut   : t.resetOut = .low
  nssOut     : t.nssOut = .high
  xferBusy   : t.xferBusy = false
  fatal      : t.fatal = s.fatal
  refused    : t.refused = s.refused
  port       : t.port = s.port
  cfg        : t.cfg = s.cfg
  replies    : t.replies = s.replies

/-- Identification does not touch the mirror. -/
theorem identify_modeMirror {n : Nat} {s : State} (h : s.xferBusy = false) :
    (identify n s).state.modeMirror = s.modeMirror := by
  induction n generalizing s with
  | zero =>
    by_cases hv : radioReply s.cfg.regs.version s = s.cfg.versionExpected
    · rw [identify_match h 0 hv]; rfl
    · rw [identify_last_mismatch h hv]; rfl
  | succ n ih =>
    by_cases hv : radioReply s.cfg.regs.version s = s.cfg.versionExpected
    · rw [identify_match h _ hv]; rfl
    · rw [identify_mismatch h n hv]
      exact ih rfl

theorem Script.initLeaves {s t : State} {ops : List Op} {vs : List Byte} (h : Script (afterPulse s) t ops vs)
    (hidle : s.xferBusy = false) (hops : ops.any Op.isTransfer = true) (hmirror : t.modeMirror = none) : InitLeaves s t where
  modeMirror := hmirror
  evAcc := h.bus.frame.evAcc
  evLast := h.bus.frame.evLast
  lsAcc := h.bus.frame.lsAcc
  lsLast := h.bus.frame.lsLast
  resetOut := h.bus.frame.resetOut
  nssOut := h.nssHigh hops
  xferBusy := h.idle hidle
  fatal := h.bus.frame.fatal
  refused := h.bus.frame.refused
  port := h.bus.frame.port
  cfg := h.cfg
  replies := h.bus.replies

theorem Script.initTrace {s t : State} {ops : List Op} {vs : List Byte} (h : Script (afterPulse s) t ops vs) :
    ∃ es, t.trace = s.trace ++ es ∧ Described (pulseOps s.cfg ++ ops) es := by
  obtain ⟨es, hpulse, hes⟩ := afterPulse_trace s
  obtain ⟨fs, ht, hfs⟩ := h.described
  exact ⟨es ++ fs, by rw [ht, hpulse, List.append_assoc], hes.append hfs⟩

theorem admission_init {s : State} (hp : s.phase = .ready ∨ s.phase = .uninit) : admission .init none s = none :=
  admission_codec hp rfl rfl

/-- A READY or UNINIT block runs INIT's rule: the pulse, then the identification. -/
theorem exec_init {s : State} (hp : s.phase = .ready ∨ s.phase = .uninit) :
    exec .init s =
      .next (endCommand .init s.phase ((identify 2 (afterPulse s)).bind fun _ s => .ok .done s)) :=
  command_admitted (admission_init hp)

/-- Identification completes on a radio that gives the expected value within three reads, or on the reference radio. -/
theorem identify_afterPulse {s : State} {bad : List Byte} (hidle : s.xferBusy = false)
    (h : (bad.length ≤ 2 ∧ s.cfg.versionExpected ∉ bad ∧ Answers s (bad ++ [s.cfg.versionExpected])) ∨
      (bad = [] ∧ s.radio.kind = .reference ∧ s.cfg.regs.version ≠ s.cfg.regs.fifo)) :
    ∃ t vs, identify 2 (afterPulse s) = .ok () t ∧
      Script (afterPulse s) t (mismatchOps s.cfg bad ++ [.read s.cfg.regs.version s.cfg.versionExpected]) vs := by
  rcases h with ⟨hlen, hbad, hs⟩ | ⟨rfl, hkind, hne⟩
  · obtain ⟨t, ht, hscript⟩ := identify_completes (s := afterPulse s) hidle hlen hbad (afterPulse_answers hs)
    exact ⟨t, _, ht, hscript⟩
  · have hkind' : (afterPulse s).radio.kind = .reference := (Radio.afterReset_kind _).trans hkind
    have hreply : radioReply s.cfg.regs.version (afterPulse s) = s.cfg.versionExpected :=
      radioReply_reference hkind' (if_neg hne |>.trans (if_pos rfl))
    have hread := script_read (s := afterPulse s) hidle s.cfg.regs.version
    rw [hreply] at hread
    exact ⟨_, _, identify_match (s := afterPulse s) hidle 2 hreply, hread⟩

/-- A bus sequence without writes leaves the registers; identification is one. -/
theorem identify_regs {n : Nat} {s : State} (h : s.xferBusy = false) : (identify n s).state.radio.regs = s.radio.regs := by
  induction n generalizing s with
  | zero =>
    by_cases hv : radioReply s.cfg.regs.version s = s.cfg.versionExpected
    · rw [identify_match h 0 hv]; exact Radio.afterRead_regs _ _ _
    · rw [identify_last_mismatch h hv]; exact Radio.afterRead_regs _ _ _
  | succ n ih =>
    by_cases hv : radioReply s.cfg.regs.version s = s.cfg.versionExpected
    · rw [identify_match h _ hv]; exact Radio.afterRead_regs _ _ _
    · rw [identify_mismatch h n hv]
      exact (ih rfl).trans (Radio.afterRead_regs _ _ _)

/-- Settles O24: the pulse, the mismatches with their waits, and the read that matches. -/
theorem initCompletes : Obligations.InitCompletes := by
  intro s bad hp hidle hradio
  obtain ⟨t, vs, ht, hscript⟩ := identify_afterPulse hidle hradio
  have hmirror := identify_modeMirror (n := 2) (s := afterPulse s) hidle
  have hregs := identify_regs (n := 2) (s := afterPulse s) hidle
  rw [ht] at hmirror hregs
  obtain ⟨es, htrace, hes⟩ := hscript.initTrace
  have hleaves := hscript.initLeaves hidle (by simp [Op.isTransfer]) hmirror
  refine ⟨endOnReturn .ready .done t, es, ?_, htrace, ?_, rfl, hleaves.modeMirror, hleaves.evAcc, hleaves.evLast, hleaves.lsAcc,
    hleaves.lsLast, hleaves.resetOut, hleaves.nssOut, hleaves.xferBusy, rfl, hleaves.fatal, hleaves.refused, hleaves.port,
    hleaves.cfg, by rw [endOnReturn_replies, hleaves.replies], fun hkind a => ?_, fun hkind => ?_⟩
  · rw [exec_init hp, ht]
    rfl
  · rw [← List.append_assoc] at hes
    exact hes
  · rw [endOnReturn_radio]
    have hempty : t.radio.regs = [] := hregs.trans (afterPulse_regs hkind)
    rw [hempty]
    rfl
  · rw [endOnReturn_radio]
    refine hregs.trans ?_
    show s.radio.afterReset.regs = _
    simp [Radio.afterReset, hkind]

/-- Settles O25: after two mismatches with their waits the third ends INIT. -/
theorem initFailsAfterThreeMismatches : Obligations.InitFailsAfterThreeMismatches := by
  intro s b1 b2 b3 hp hidle hbad hs
  simp only [List.mem_cons, List.not_mem_nil, or_false, not_or] at hbad
  obtain ⟨h1, h2, h3⟩ := hbad
  have hidle0 : (afterPulse s).xferBusy = false := hidle
  have hs0 := afterPulse_answers hs
  obtain ⟨t, ht, script1⟩ := identify_attempt hidle0 (Ne.symm h1) hs0 1
  have hs1 := script1.answers _ hs0
  obtain ⟨u, hu, script2⟩ := identify_attempt (script1.idle hidle0) (by rw [script1.cfg]; exact Ne.symm h2) hs1 0
  have hs2 := script2.answers _ hs1
  have hcfg : u.cfg = s.cfg := script2.cfg.trans script1.cfg
  have hidle2 := script2.idle (script1.idle hidle0)
  have hreply := radioReply_of_answers u.cfg.regs.version hs2
  have script3 := script_read hidle2 u.cfg.regs.version
  have hlast := identify_last_mismatch hidle2 (by rw [hreply, hcfg]; exact Ne.symm h3)
  rw [hreply] at script3 hlast
  have hrun : identify 2 (afterPulse s) = .err (.hardwareInit b3) (afterRead u.cfg.regs.version u) :=
    ht.trans (hu.trans hlast)
  have hscript := (script1.trans script2).trans script3
  have hmirror := identify_modeMirror (n := 2) hidle0
  rw [hrun] at hmirror
  obtain ⟨es, htrace, hes⟩ := hscript.initTrace
  have hleaves := hscript.initLeaves hidle (by simp [Op.isTransfer]) hmirror
  rw [script1.cfg, hcfg] at hes
  refine ⟨endOnError s.phase (.hardwareInit b3) (afterRead u.cfg.regs.version u), es, ?_, htrace, hes, rfl, rfl,
    by rw [endOnError_replies, hleaves.replies], hleaves.modeMirror, hleaves.evAcc, hleaves.evLast, hleaves.lsAcc,
    hleaves.lsLast, hleaves.resetOut, hleaves.nssOut, hleaves.xferBusy, rfl, hleaves.refused, hleaves.port, hleaves.cfg⟩
  rw [exec_init hp, hrun]
  rfl

end Sys2Proof.Machine
end

section
/-! PROOF. Modes and polling (41_driver_control.md sections 2 to 4): SET_MODE, SET_HIGH_POWER, AVAILABLE and READ_BYTE. -/

namespace Sys2Proof.Machine

/-! ## SET_MODE on a radio that is ready at once (R96, R97) -/

theorem poll_hit {reg : Addr} {flag : Byte → Bool} {limit period t0 n : Nat} {s : State} (h : s.xferBusy = false)
    (hv : flag (radioReply reg s) = true) : poll reg flag limit period t0 (n + 1) s = .ok true (afterRead reg s) := by
  rw [poll, regRead_idle h, Res.bind_ok, if_pos hv]

theorem pollReads_pos (limit period : Nat) : ∃ n, pollReads limit period = n + 1 := ⟨_, rfl⟩

/-- R96: a mode poll whose first read shows the flag is that read. -/
theorem pollModeReady_plays {s : State} {m : Mode} {r : Byte} {ws : List Byte} (h : s.xferBusy = false)
    (hs : Answers s (r :: ws)) (hr : modeReady s.cfg r = true) :
    Plays s [.read s.cfg.regs.irqflags1 r] [r] s.modeMirror (pollModeReady m s) := by
  have hreply := radioReply_of_answers s.cfg.regs.irqflags1 hs
  obtain ⟨n, hn⟩ := pollReads_pos tModeTimeout tModePoll
  have hread := script_read h s.cfg.regs.irqflags1
  rw [hreply] at hread
  refine ⟨_, ?_, hread, rfl⟩
  rw [pollModeReady, hn, poll_hit h (by rwa [hreply])]
  rfl

/-- The read of OPMODE that begins a mode change shows the mode: the change is that read. -/
theorem setMode_same {s : State} {m : Mode} (h : s.xferBusy = false)
    (hv : modeField s.cfg (radioReply s.cfg.regs.opmode s) = modeCode m) :
    setMode m s = .ok () (setMirror (some m) (afterRead s.cfg.regs.opmode s)) := by
  rw [setMode, regRead_idle h, Res.bind_ok, afterRead_cfg, if_pos hv]

/-- The state in which the mode poll of a real change begins: OPMODE read and written, the mirror UNKNOWN. -/
def modeAsked (m : Mode) (s : State) : State :=
  setMirror none (afterWrite s.cfg.regs.opmode [opmodeValue s.cfg (radioReply s.cfg.regs.opmode s) m]
    (afterRead s.cfg.regs.opmode s))

theorem setMode_change {s : State} {m : Mode} (h : s.xferBusy = false)
    (hv : modeField s.cfg (radioReply s.cfg.regs.opmode s) ≠ modeCode m) :
    setMode m s = (pollModeReady m (modeAsked m s)).bind fun _ s => .ok () (setMirror (some m) s) := by
  rw [setMode, regRead_idle h, Res.bind_ok, afterRead_cfg, if_neg hv, regWrite_idle (afterRead_xferBusy _ _), Res.bind_ok]
  rfl

theorem modeAsked_script {s : State} (m : Mode) (h : s.xferBusy = false) :
    Script s (modeAsked m s) [.read s.cfg.regs.opmode (radioReply s.cfg.regs.opmode s),
      .write s.cfg.regs.opmode [opmodeValue s.cfg (radioReply s.cfg.regs.opmode s) m]] [radioReply s.cfg.regs.opmode s] :=
  ((script_read h _).trans (script_write (s := afterRead s.cfg.regs.opmode s) rfl (by simp) (burstFits_one _ _))).trans
    (script_mirror _ _)

/-- R97: a mode change on a radio that is in the mode, or ready at once. -/
theorem setMode_plays {s : State} {m : Mode} {v r : Byte} {ws : List Byte} (h : s.xferBusy = false)
    (hgood : ModeGood s.cfg m v r) (hs : Answers s (modeAnswers s.cfg m v r ++ ws)) :
    Plays s (modeOps s.cfg m v r) (modeAnswers s.cfg m v r) (some m) (setMode m s) := by
  by_cases hv : modeField s.cfg v = modeCode m
  · rw [modeOps, modeAnswers, if_pos hv, if_pos hv]
    rw [modeAnswers, if_pos hv] at hs
    have hreply := radioReply_of_answers s.cfg.regs.opmode hs
    have hread := script_read h s.cfg.regs.opmode
    rw [hreply] at hread
    exact ⟨_, setMode_same h (by rwa [hreply]), hread.trans (script_mirror _ _), rfl⟩
  · rw [modeOps, modeAnswers, if_neg hv, if_neg hv]
    rw [modeAnswers, if_neg hv] at hs
    have hreply := radioReply_of_answers s.cfg.regs.opmode hs
    have hasked := modeAsked_script m h
    have hchange := setMode_change h (by rwa [hreply])
    rw [hreply] at hasked
    obtain ⟨t, ht, hpoll, _⟩ := pollModeReady_plays (m := m) (hasked.idle h) (hasked.answers (r :: ws) hs)
      (by rw [hasked.cfg]; exact hgood.resolve_left hv)
    rw [hasked.cfg] at hpoll
    rw [ht] at hchange
    exact ⟨_, hchange, (hasked.trans hpoll).trans (script_mirror t _), rfl⟩

theorem modeOps_transfer (c : Config) (m : Mode) (v r : Byte) : (modeOps c m v r).any Op.isTransfer = true := by
  unfold modeOps
  split <;> rfl

/-- Settles O26: the one read, or read, write and the poll's first read. -/
theorem setModeAtFirstPoll : Obligations.SetModeAtFirstPoll := by
  intro s m v r hready hgood hs
  have hlaid : Answers (startCommand s) (modeAnswers s.cfg m v r ++ []) := by
    rw [List.append_nil]
    exact hs
  have hplays := setMode_plays (s := startCommand s) hready.2 hgood hlaid
  obtain ⟨t, es, ht, hreturned, hdescribed, hmirror, hregs⟩ :=
    command_plays (i := .setMode m) (body := fun s => (setMode m s).bind fun _ s => .ok .done s) hready rfl rfl
      Instr.noConfusion rfl hplays (modeOps_transfer _ _ _ _)
  exact ⟨t, es, ht, hreturned, hdescribed, hmirror, hregs hs.1⟩

/-! ## SET_MODE on any radio -/

/-- The event a read leaves in the trace. -/
def readEvent (a : Addr) (s : State) : Event := .transfer (readMosi a) [freeMiso s (readMosi a) 0, radioReply a s]

theorem afterRead_trace_readEvent (a : Addr) (s : State) : (afterRead a s).trace = s.trace ++ [readEvent a s] := rfl

theorem readEvent_described (a : Addr) (s : State) : (Op.read a (radioReply a s)).describes (readEvent a s) := ⟨rfl, _, rfl⟩

theorem transferCount_readEvent (a : Addr) (s : State) (es : List Event) :
    transferCount (readEvent a s :: es) = transferCount es + 1 := rfl

/-- R96: what a poll with no transfer in flight does when its bound allows waits of the whole limit: it ends at the flag, or
after the limit has passed. -/
theorem poll_trace {reg : Addr} {flag : Byte → Bool} {limit period t0 n : Nat} {s : State} (h : s.xferBusy = false)
    (ht : t0 ≤ s.now) (hb : limit ≤ s.now - t0 + n * period) :
    ∃ seen t es, poll reg flag limit period t0 (n + 1) s = .ok seen t ∧ t.trace = s.trace ++ es ∧ t.nssOut = .high ∧
      PollTrace reg flag period seen es ∧ transferCount es ≤ n + 1 := by
  have hread := readEvent_described reg s
  cases hv : flag (radioReply reg s) with
  | true => exact ⟨true, _, [readEvent reg s], poll_hit h hv, rfl, rfl, .hit hread hv, Nat.succ_le_succ n.zero_le⟩
  | false =>
    rw [poll, regRead_idle h, Res.bind_ok, hv, if_neg Bool.false_ne_true]
    by_cases hpassed : (afterRead reg s).now - t0 ≥ limit
    · rw [if_pos hpassed]
      exact ⟨false, _, [readEvent reg s], rfl, rfl, rfl, .giveUp hread hv, Nat.succ_le_succ n.zero_le⟩
    · rw [if_neg hpassed]
      have hlater : s.now ≤ (afterRead reg s).now := Nat.le_add_right _ _
      cases n with
      | zero => omega
      | succ n =>
        rw [Nat.succ_mul] at hb
        obtain ⟨seen, t, es, hpoll, htrace, hnss, hes, hcount⟩ := poll_trace (flag := flag) (t0 := t0)
          (s := wait period (afterRead reg s)) (reg := reg) (limit := limit) (period := period) (n := n) rfl
          (by rw [wait_now]; omega) (by rw [wait_now]; omega)
        refine ⟨seen, t, readEvent reg s :: .wait period :: es, hpoll, ?_, hnss, .again hread hv hes, ?_⟩
        · rw [htrace, wait_trace, afterRead_trace_readEvent, List.append_assoc, List.append_assoc]
          rfl
        · rw [transferCount_readEvent]
          exact Nat.succ_le_succ hcount

/-- The steps of a real mode change: OPMODE read and written, then the poll, which saw the flag or did not. -/
def ModePolled (c : Config) (m : Mode) (seen : Bool) (es : List Event) : Prop :=
  ∃ v head polls, modeField c v ≠ modeCode m ∧ es = head ++ polls ∧
    Described [.read c.regs.opmode v, .write c.regs.opmode [opmodeValue c v m]] head ∧
    PollTrace c.regs.irqflags1 (modeReady c) 1000 seen polls ∧ transferCount polls ≤ 1001

/-- R96, R97: what a mode change does with any radio. -/
theorem setMode_trace {s : State} (m : Mode) (h : s.xferBusy = false) :
    ∃ t es, t.trace = s.trace ++ es ∧ t.nssOut = .high ∧
      ((setMode m s = .ok () t ∧ ((∃ v, modeField s.cfg v = modeCode m ∧ Described [.read s.cfg.regs.opmode v] es) ∨
          ModePolled s.cfg m true es)) ∨
        (setMode m s = .err (.modeTimeout m) t ∧ ModePolled s.cfg m false es)) := by
  by_cases hv : modeField s.cfg (radioReply s.cfg.regs.opmode s) = modeCode m
  · exact ⟨_, [readEvent s.cfg.regs.opmode s], rfl, rfl,
      .inl ⟨setMode_same h hv, .inl ⟨_, hv, .one (readEvent_described _ _)⟩⟩⟩
  · have hasked := modeAsked_script m h
    obtain ⟨head, htrace, hhead⟩ := hasked.described
    obtain ⟨seen, t, polls, hpoll, htrace', hnss, hpolls, hcount⟩ := poll_trace (s := modeAsked m s) (n := 1000)
      (reg := s.cfg.regs.irqflags1) (flag := modeReady s.cfg) (limit := tModeTimeout) (period := tModePoll)
      (t0 := (modeAsked m s).now) rfl le_rfl (by rw [Nat.sub_self]; decide)
    have hpolled : ModePolled s.cfg m seen (head ++ polls) := ⟨_, head, polls, hv, rfl, hhead, hpolls, hcount⟩
    have hrun : setMode m s = ((if seen then .ok () t else .err (.modeTimeout m) t : Res Unit)).bind
        fun _ s => .ok () (setMirror (some m) s) := by
      rw [setMode_change h hv, pollModeReady, hasked.cfg]
      exact congrArg (fun r : Res Bool => (r.bind fun seen s => if seen then Res.ok () s else .err (.modeTimeout m) s).bind
        fun _ s => Res.ok () (setMirror (some m) s)) hpoll
    have htrace : t.trace = s.trace ++ (head ++ polls) := by rw [htrace', htrace, List.append_assoc]
    cases seen with
    | true => exact ⟨setMirror (some m) t, _, htrace, hnss, .inl ⟨hrun, .inr hpolled⟩⟩
    | false => exact ⟨t, _, htrace, hnss, .inr ⟨hrun, hpolled⟩⟩

/-- Settles O27: the mode change of R97, whose poll saw the flag or gave up after its limit. -/
theorem setModeEndsReadyOrTimesOut : Obligations.SetModeEndsReadyOrTimesOut := by
  intro s m hready
  have hidle : (startCommand s).xferBusy = false := hready.2
  have hbus := setMode_bus m (startCommand s)
  have hadmitted : exec (.setMode m) s = .next (endCommand .setMode s.phase
      ((setMode m (startCommand s)).bind fun _ s => .ok .done s)) :=
    command_admitted (admission_ready hready.1 rfl)
  obtain ⟨t, es, htrace, hnss, ⟨hrun, hes⟩ | ⟨hrun, hes⟩⟩ := setMode_trace m hidle
  · refine ⟨endOnReturn s.phase .done t, es, ?_, .inl ⟨returned_of_bus hready.2 (hbus.of_ok hrun) hnss htrace _,
      (endOnReturn_modeMirror _ _ _).trans (setMode_ok hrun), hes⟩⟩
    rw [hadmitted, hrun]
    rfl
  · obtain ⟨_, hnow, hmirror⟩ := setMode_err hidle hrun
    refine ⟨endOnError s.phase (.modeTimeout m) t, es, ?_, .inr ⟨raised_of_bus hready.2 (hbus.of_err hrun) hnss htrace rfl,
      hmirror, hnow, hes⟩⟩
    rw [hadmitted, hrun]
    rfl

/-! ## SET_HIGH_POWER, AVAILABLE and READ_BYTE (R98 to R100) -/

/-- R98: two read-modify-writes, with whatever bytes the radio answers. -/
theorem setHighPower_plays {s : State} (h : s.xferBusy = false) :
    ∃ p q, Plays s [.read s.cfg.regs.palevel p, .write s.cfg.regs.palevel [p ||| s.cfg.paBoostMask],
        .read s.cfg.regs.ocp q, .write s.cfg.regs.ocp [q &&& ~~~s.cfg.ocpOnMask]] [p, q] s.modeMirror (setHighPower s) ∧
      ∀ x y, Answers s [x, y] → p = x ∧ q = y := by
  obtain ⟨t, ht, hscript, hmirror⟩ := rmw_plays h s.cfg.regs.palevel 0xFF s.cfg.paBoostMask
  have hocp := rmw_plays (hscript.idle h) t.cfg.regs.ocp (0xFF &&& ~~~t.cfg.ocpOnMask) 0x00
  rw [hscript.cfg, hmirror] at hocp
  have hboost : ∀ x : Byte, (x &&& 0xFF) ||| s.cfg.paBoostMask = x ||| s.cfg.paBoostMask := fun x =>
    congrArg (· ||| s.cfg.paBoostMask) BitVec.and_allOnes
  have hclear : (radioReply s.cfg.regs.ocp t &&& (0xFF &&& ~~~s.cfg.ocpOnMask)) ||| 0x00 =
      radioReply s.cfg.regs.ocp t &&& ~~~s.cfg.ocpOnMask :=
    BitVec.or_zero.trans (congrArg (radioReply s.cfg.regs.ocp t &&& ·) BitVec.allOnes_and)
  refine ⟨radioReply s.cfg.regs.palevel s, radioReply s.cfg.regs.ocp t, ?_⟩
  rw [hboost] at hscript
  rw [hclear] at hocp
  obtain ⟨u, hu, hscript', hmirror'⟩ := hocp
  refine ⟨⟨u, by rw [setHighPower, ht, Res.bind_ok, hscript.cfg]; exact hu, hscript.trans hscript', hmirror'⟩, fun x y hs => ?_⟩
  have hx := radioReply_of_answers s.cfg.regs.palevel hs
  exact ⟨hx, radioReply_of_answers _ (hscript.answers [y] (by rwa [hx]))⟩

/-- Settles O29: the read-modify-writes of PALEVEL and OCP. -/
theorem setHighPowerCompletes : Obligations.SetHighPowerCompletes := by
  intro s hready
  obtain ⟨p, q, hplays, hanswers⟩ := setHighPower_plays (s := startCommand s) hready.2
  obtain ⟨t, es, ht, hreturned, hdescribed, hmirror, _⟩ :=
    command_plays (i := .setHighPower) (body := fun s => (setHighPower s).bind fun _ s => .ok .done s) hready rfl rfl
      Instr.noConfusion rfl hplays rfl
  exact ⟨t, es, p, q, ht, hreturned, hdescribed, hmirror, hanswers⟩

/-- A READY command whose rule is one read. -/
theorem command_read {i : Instr} {body : State → Res CmdResult} {s : State} {a : Addr} (f : Byte → CmdResult)
    (hready : Ready s) (hwf : i.wf = true) (hi : i ≠ .init)
    (hbody : body (startCommand s) = .ok (f (radioReply a s)) (afterRead a (startCommand s))) :
    ∃ t es, command i none body s = .next t ∧ Returned s t (f (radioReply a s)) es ∧
      Described [.read a (radioReply a s)] es ∧ t.modeMirror = s.modeMirror ∧ t.radio = s.radio.afterRead s.cfg a :=
  command_script hready hwf rfl hi hbody (script_read (s := startCommand s) hready.2 a) rfl

/-- Settles O30: one read of AVAIL_REG, one of the FIFO port. -/
theorem receivePolling : Obligations.ReceivePolling := by
  intro s hready
  constructor
  · obtain ⟨t, es, ht, hreturned, hdescribed, hmirror, hradio⟩ := command_read (i := .available) (a := s.cfg.availReg)
      (body := fun s => (regRead s.cfg.availReg s).bind fun v s => .ok (.flag (availFlag s.cfg v)) s)
      (fun v => .flag (v.getLsbD s.cfg.availBit)) hready rfl Instr.noConfusion
      (by rw [regRead_idle (s := startCommand s) hready.2]; rfl)
    exact ⟨t, es, _, ht, hreturned, hdescribed, hmirror, by rw [hradio, Radio.afterRead_regs],
      fun x hs => radioReply_of_answers _ hs⟩
  · obtain ⟨t, es, ht, hreturned, hdescribed, hmirror, hradio⟩ := command_read (i := .readByte) (a := s.cfg.regs.fifo)
      (body := fun s => (regRead s.cfg.regs.fifo s).bind fun v s => .ok (.byte v) s) .byte hready rfl Instr.noConfusion
      (by rw [regRead_idle (s := startCommand s) hready.2]; rfl)
    refine ⟨t, es, _, ht, hreturned, hdescribed, hmirror, by rw [hradio, Radio.afterRead_regs],
      fun x hs => radioReply_of_answers _ hs, fun hkind x xs hfifo => ⟨radioReply_fifo hkind hfifo, ?_⟩⟩
    rw [hradio]
    exact Radio.afterRead_fifo hkind hfifo

end Sys2Proof.Machine
end

section
/-! PROOF. Configuration and sending (42_driver_config.md, 43_transmit.md, 44 and 45 section 3): SET_CONFIG, SET_FRAMING,
TRANSMIT, EV_SEND and LS_SEND. -/

namespace Sys2Proof.Machine

/-! ## Actions and the steps they make -/

/-- The radio gives the answers `vs` to its next reads, where there are any. -/
def Supplies (s : State) (vs : List Byte) : Prop := vs = [] ∨ ∃ ws, Answers s (vs ++ ws)

theorem Supplies.of_answers {s : State} {vs : List Byte} (h : Answers s vs) : Supplies s vs :=
  .inr ⟨[], by rwa [List.append_nil]⟩

theorem Supplies.first {s : State} {vs vs' : List Byte} (h : Supplies s (vs ++ vs')) : Supplies s vs := by
  rcases h with h | ⟨ws, h⟩
  · exact .inl (List.append_eq_nil_iff.1 h).1
  · exact .inr ⟨vs' ++ ws, by rwa [← List.append_assoc]⟩

theorem Supplies.rest {s t : State} {ops : List Op} {vs vs' : List Byte} (h : Supplies s (vs ++ vs'))
    (hscript : Script s t ops vs) : Supplies t vs' := by
  rcases h with h | ⟨ws, h⟩
  · exact .inl (List.append_eq_nil_iff.1 h).2
  · exact .inr ⟨ws, hscript.answers _ (by rwa [← List.append_assoc])⟩

theorem Supplies.answers {s : State} {v : Byte} {vs : List Byte} (h : Supplies s (v :: vs)) : ∃ ws, Answers s (v :: vs ++ ws) :=
  h.resolve_left (List.cons_ne_nil v vs)

/-- Under the parameters `c` and the mirror `m` the action makes the steps `ops` on a radio that answers `vs`, ends as `out`
says and leaves the mirror at `m'`. -/
structure Acts (c : Config) (f : State → Res Unit) (out : State → Res Unit) (ops : List Op) (vs : List Byte)
    (m m' : Option Mode) : Prop where
  run (s : State) : s.cfg = c → s.xferBusy = false → s.modeMirror = m → Supplies s vs →
    ∃ t, f s = out t ∧ Script s t ops vs ∧ t.modeMirror = m'

/-- The action completes. -/
abbrev Completes (c : Config) (f : State → Res Unit) (ops : List Op) (vs : List Byte) (m m' : Option Mode) : Prop :=
  Acts c f (Res.ok ()) ops vs m m'

theorem Acts.cast {c : Config} {f out : State → Res Unit} {ops ops' : List Op} {vs vs' : List Byte} {m m' : Option Mode}
    (h : Acts c f out ops vs m m') (hops : ops = ops') (hvs : vs = vs') : Acts c f out ops' vs' m m' := by
  subst hops hvs
  exact h

theorem Acts.bind {c : Config} {f g out : State → Res Unit} {ops ops' : List Op} {vs vs' : List Byte}
    {m m' m'' : Option Mode} (hf : Completes c f ops vs m m') (hg : Acts c g out ops' vs' m' m'') :
    Acts c (fun s => (f s).bind fun _ s => g s) out (ops ++ ops') (vs ++ vs') m m'' := by
  refine ⟨fun s hc hidle hm hs => ?_⟩
  obtain ⟨t, ht, hscript, hm'⟩ := hf.run s hc hidle hm hs.first
  obtain ⟨u, hu, hscript', hm''⟩ := hg.run t (hscript.cfg.trans hc) (hscript.idle hidle) hm' (hs.rest hscript)
  exact ⟨u, by simp only [ht, Res.bind_ok, hu], hscript.trans hscript', hm''⟩

theorem completes_nothing (c : Config) (m : Option Mode) : Completes c (Res.ok ()) [] [] m m :=
  ⟨fun s _ _ hm _ => ⟨s, rfl, .refl s, hm⟩⟩

/-- An action that depends on the parameters, seen under the parameters. -/
theorem Acts.of_cfg {c : Config} {f : Config → State → Res Unit} {out : State → Res Unit} {ops : List Op} {vs : List Byte}
    {m m' : Option Mode} (h : Acts c (f c) out ops vs m m') : Acts c (fun s => f s.cfg s) out ops vs m m' := by
  constructor
  rintro s rfl
  exact h.run s rfl

theorem completes_write {c : Config} {a : Addr} {d : List Byte} (m : Option Mode) (hd : d ≠ [])
    (hf : burstFits c a d.length = true) : Completes c (regWrite a d) [.write a d] [] m m := by
  constructor
  rintro s rfl hidle rfl _
  exact regWrite_plays hidle hd hf

theorem completes_writeOne (c : Config) (a : Addr) (v : Byte) (m : Option Mode) :
    Completes c (regWrite a [v]) [.write a [v]] [] m m :=
  completes_write m (List.cons_ne_nil v []) (burstFits_one c a)

theorem completes_msbFirst {c : Config} {a : Addr} {k : Nat} (v : Nat) (m : Option Mode) (hk : 0 < k)
    (hf : burstFits c a k = true) : Completes c (regWrite a (msbFirst k v)) [.write a (msbFirst k v)] [] m m :=
  completes_write m (msbFirst_ne_nil hk) (by rwa [msbFirst_length])

theorem completes_rmw (c : Config) (a : Addr) (x y w : Byte) (m : Option Mode) :
    Completes c (rmw a x y) [.read a w, .write a [(w &&& x) ||| y]] [w] m m := by
  constructor
  rintro s rfl hidle rfl hs
  obtain ⟨ws, hs⟩ := hs.answers
  have hplays := rmw_plays hidle a x y
  rwa [radioReply_of_answers a hs] at hplays

theorem modeAnswers_ne_nil (c : Config) (m : Mode) (v r : Byte) : modeAnswers c m v r ≠ [] := by
  unfold modeAnswers
  split <;> simp

theorem completes_setMode {c : Config} {m : Mode} {v r : Byte} (m₀ : Option Mode) (hgood : ModeGood c m v r) :
    Completes c (setMode m) (modeOps c m v r) (modeAnswers c m v r) m₀ (some m) := by
  constructor
  rintro s rfl hidle _ hs
  obtain ⟨ws, hs⟩ := hs.resolve_left (modeAnswers_ne_nil _ _ _ _)
  exact setMode_plays hidle hgood hs

/-- A READY command whose rule is an action that completes. -/
theorem command_completes {i : Instr} {ch : Option Reason} {body : State → Res CmdResult} {f : State → Res Unit} {s : State}
    {ops : List Op} {vs : List Byte} {m : Option Mode} (hready : Ready s) (hwf : i.wf = true) (hch : ch = none)
    (hi : i ≠ .init) (hbody : body (startCommand s) = (f (startCommand s)).bind fun _ s => .ok .done s)
    (h : Completes s.cfg f ops vs s.modeMirror m) (hs : Supplies s vs) (hops : ops.any Op.isTransfer = true) :
    ∃ t es, command i ch body s = .next t ∧ Returned s t .done es ∧ Described ops es ∧ t.modeMirror = m ∧
      (s.radio.kind = .oracle → t.radio.regs = s.radio.regs) :=
  command_plays hready hwf hch hi hbody (h.run (startCommand s) rfl hready.2 rfl hs) hops

/-! ## SET_FRAMING (R111) -/

theorem burstFits_of_le {c : Config} {a : Addr} {n k : Nat} (h : burstFits c a n = true) (hk : k ≤ n) :
    burstFits c a k = true := by
  rw [burstFits_iff] at h ⊢
  exact h.imp_right fun h => by omega

/-- The bursts of SET_FRAMING fit under consistent parameters. -/
theorem configOk_framing {c : Config} (h : configOk c = true) :
    burstFits c c.regs.preamble 2 = true ∧ burstFits c c.regs.syncvalue 8 = true := by
  simp only [configOk, Bool.and_eq_true] at h
  tauto

theorem FramingConfig.wf_some {fc : FramingConfig} {w : List Byte} (h : fc.wf = true) (hw : fc.syncWord = some w) :
    1 ≤ w.length ∧ w.length ≤ 8 := by
  simpa [FramingConfig.wf, hw] using h

theorem setFramingRefusal_eq_none {c : Config} {fc : FramingConfig} (hok : configOk c = true) (hwf : fc.wf = true) :
    setFramingRefusal c fc = none := by
  obtain ⟨hpre, hsync⟩ := configOk_framing hok
  have hlen : (fc.syncWord.getD []).length ≤ 8 := by
    cases hw : fc.syncWord with
    | none => exact Nat.zero_le _
    | some w => exact (FramingConfig.wf_some hwf hw).2
  simp [setFramingRefusal, hpre, burstFits_of_le hsync hlen]

/-- The steps of R111's sync configuration. -/
def syncOps (c : Config) : Option (List Byte) → List Op
  | some w => [.write c.regs.syncconfig [syncOnValue c w.length], .write c.regs.syncvalue w]
  | none => [.write c.regs.syncconfig [0x00]]

theorem completes_writeSync {c : Config} {fc : FramingConfig} (m : Option Mode) (hok : configOk c = true)
    (hwf : fc.wf = true) : Completes c (writeSync fc.syncWord) (syncOps c fc.syncWord) [] m m := by
  cases hw : fc.syncWord with
  | none => exact Acts.of_cfg (f := fun c => regWrite c.regs.syncconfig [0x00]) (completes_writeOne ..)
  | some w =>
    obtain ⟨hmin, hmax⟩ := FramingConfig.wf_some hwf hw
    have hne : w ≠ [] := List.ne_nil_of_length_pos hmin
    exact (Acts.of_cfg (f := fun c => regWrite c.regs.syncconfig [syncOnValue c w.length]) (completes_writeOne ..)).bind
      (Acts.of_cfg (f := fun c => regWrite c.regs.syncvalue w)
        (completes_write m hne (burstFits_of_le (configOk_framing hok).2 hmax)))

theorem completes_setFraming {c : Config} {fc : FramingConfig} (m : Option Mode) (hok : configOk c = true)
    (hwf : fc.wf = true) : Completes c (setFraming fc) (framingOps c fc) [] m m := by
  have hall := Acts.bind
    (Acts.of_cfg (f := fun c => regWrite c.regs.packetconfig1 [fc.packetModeByte]) (completes_writeOne c _ _ m)) <|
    Acts.bind
    (Acts.of_cfg (f := fun c => regWrite c.regs.payloadlength [fc.fixedPayloadLength]) (completes_writeOne c _ _ m)) <|
    Acts.bind
    (Acts.of_cfg (f := fun c => regWrite c.regs.preamble (msbFirst 2 fc.preambleLength.toNat))
      (completes_msbFirst _ m two_pos (configOk_framing hok).1))
    (completes_writeSync m hok hwf)
  refine hall.cast ?_ rfl
  cases hw : fc.syncWord <;> simp [framingOps, syncOps, hw]

/-- Settles O40: the writes of R111 in order, from any radio. -/
theorem setFramingCompletes : Obligations.SetFramingCompletes := by
  intro s fc hready hok hwf
  obtain ⟨t, es, ht, hreturned, hdescribed, hmirror, _⟩ := command_completes (i := .setFraming fc)
    (body := fun s => (setFraming fc s).bind fun _ s => .ok .done s) hready hwf (setFramingRefusal_eq_none hok hwf)
    Instr.noConfusion rfl (completes_setFraming s.modeMirror hok hwf) (.inl rfl) rfl
  exact ⟨t, es, ht, hreturned, hdescribed, hmirror⟩

/-! ## SET_CONFIG (R101 to R109) -/

/-- R108: one bandwidth register, in the style of the parameters. -/
def bwRegAnswers (c : Config) (w : Byte) : List Byte :=
  match c.rxbwWrite with
  | .rmw => [w]
  | .full _ => []

theorem completes_writeBwReg (c : Config) (a : Addr) (p : Nat × Nat) (w : Byte) (m : Option Mode) :
    Completes c (writeBwReg a p) (bwRegOps c a p w) (bwRegAnswers c w) m m := by
  refine Acts.of_cfg (f := fun c s => match c.rxbwWrite with
    | .rmw => rmw a (bwKeepMask c) (bwBits c p) s
    | .full dcc => regWrite a [bwFullByte c dcc p] s) ?_
  unfold bwRegOps bwRegAnswers
  cases c.rxbwWrite with
  | rmw => exact completes_rmw ..
  | full dcc => exact completes_writeOne ..

theorem completes_writeRxBw (c : Config) (p : Nat × Nat) (w w' : Byte) (m : Option Mode) :
    Completes c (writeRxBw p) (bwOps c p w w') (bwAnswers c w w') m m := by
  have hrx : Completes c (fun s => writeBwReg s.cfg.regs.rxbw p s) (bwRegOps c c.regs.rxbw p w) (bwRegAnswers c w) m m :=
    Acts.of_cfg (f := fun c => writeBwReg c.regs.rxbw p) (completes_writeBwReg ..)
  have hafc : Completes c (fun s => if s.cfg.afcbwAlso then writeBwReg s.cfg.regs.afcbw p s else .ok () s)
      (if c.afcbwAlso then bwRegOps c c.regs.afcbw p w' else []) (if c.afcbwAlso then bwRegAnswers c w' else []) m m := by
    refine Acts.of_cfg (f := fun c s => if c.afcbwAlso then writeBwReg c.regs.afcbw p s else .ok () s) ?_
    cases c.afcbwAlso with
    | true => exact completes_writeBwReg ..
    | false => exact completes_nothing c m
  refine (hrx.bind hafc).cast rfl ?_
  unfold bwRegAnswers bwAnswers
  cases c.rxbwWrite <;> simp

/-- R109: the steps of SET_CONFIG up to FDEV, and then what the bandwidth does. -/
theorem acts_setConfig {c : Config} {rc : RadioConfig} {v r : Byte} {out : State → Res Unit} {ops : List Op} {vs : List Byte}
    (m : Option Mode) (hok : configOk c = true) (hgood : ModeGood c .standby v r)
    (hbw : Acts c (fun s => if usesDeviation rc then searchAndWriteBw rc s else .ok () s) out ops vs (some .standby)
      (some .standby)) :
    Acts c (setConfig rc) out (configHeadOps c rc v r ++ ops) (modeAnswers c .standby v r ++ vs) m (some .standby) := by
  obtain ⟨hfrf, hbitrate, hfdev⟩ := configOk_bursts hok
  have hrate : Completes c (writeBitRate rc)
      (if rc.bitRateBps > 0 then [.write c.regs.bitrate (msbFirst 2 (brValue rc.bitRateBps))] else []) []
      (some .standby) (some .standby) := by
    unfold writeBitRate
    split
    · exact Acts.of_cfg (f := fun c => regWrite c.regs.bitrate (msbFirst 2 (brValue rc.bitRateBps)))
        (completes_msbFirst _ _ two_pos hbitrate)
    · exact completes_nothing _ _
  have hdev : Acts c (writeDeviation rc) out ((if rc.bitRateBps > 0 ∧ rc.freqDeviationHz > 0 then
      [.write c.regs.fdev (msbFirst 2 (fdValue rc.freqDeviationHz))] else []) ++ ops) vs (some .standby) (some .standby) := by
    unfold writeDeviation
    split at hbw
    · next huses =>
      rw [if_pos (usesDeviation_iff.1 huses)]
      simp only [huses, if_true]
      exact (Acts.of_cfg (f := fun c => regWrite c.regs.fdev (msbFirst 2 (fdValue rc.freqDeviationHz)))
        (completes_msbFirst _ _ two_pos hfdev)).bind hbw
    · next huses =>
      rw [if_neg fun h => huses (usesDeviation_iff.2 h)]
      simp only [huses]
      exact hbw
  have hall := (completes_setMode m hgood).bind <| Acts.bind
    (Acts.of_cfg (f := fun c => regWrite c.regs.frf (msbFirst 3 (frfValue rc.carrierFreqHz)))
      (completes_msbFirst _ _ three_pos hfrf)) <| Acts.bind
    (Acts.of_cfg (f := fun c => regWrite c.regs.datamodul [rc.modulationFlags]) (completes_writeOne ..)) (hrate.bind hdev)
  exact hall.cast (by simp [configHeadOps]) rfl

/-- R107: the search fails from the limit of the modulation on. -/
theorem bwSearch_isSome_of_lt {fdev br : Nat} {ook : Bool} (h : max fdev (2 * br) < if ook then 250000 else 500000) :
    ∃ p, bwSearch fdev br ook = some p :=
  Option.ne_none_iff_exists'.1 fun hnone => Nat.not_le_of_lt h (bandwidth_limit hnone)

theorem completes_setConfig {c : Config} {rc : RadioConfig} {v r : Byte} (w w' : Byte) (m : Option Mode)
    (hok : configOk c = true) (hin : ConfigInRange c rc) (hgood : ModeGood c .standby v r) :
    Completes c (setConfig rc) (configOps c rc v r w w') (configAnswers c rc v r w w') m (some .standby) := by
  refine acts_setConfig m hok hgood ?_
  obtain ⟨_, _, _, _, hlimit⟩ := hin
  by_cases huses : usesDeviation rc = true
  · obtain ⟨hrate, hdev⟩ := usesDeviation_iff.1 huses
    obtain ⟨p, hp⟩ := bwSearch_isSome_of_lt (hlimit hrate hdev)
    rw [if_pos ⟨hrate, hdev⟩, if_pos ⟨hrate, hdev⟩, hp]
    refine Acts.of_cfg (f := fun c s => if usesDeviation rc then
      match bwSearch rc.freqDeviationHz rc.bitRateBps (isOok c rc.modulationFlags) with
      | none => .err (.bandwidthRange (bwTarget rc.freqDeviationHz rc.bitRateBps)) s
      | some p => writeRxBw p s
      else .ok () s) ?_
    simp only [huses, hp, if_true]
    exact completes_writeRxBw ..
  · have hnot : ¬ (rc.bitRateBps > 0 ∧ rc.freqDeviationHz > 0) := fun h => huses (usesDeviation_iff.2 h)
    rw [if_neg hnot, if_neg hnot]
    simp only [huses]
    exact completes_nothing _ _

/-- R107: with a target no pair exceeds, SET_CONFIG raises after FDEV. -/
theorem raises_setConfig {c : Config} {rc : RadioConfig} {v r : Byte} (m : Option Mode) (hok : configOk c = true)
    (huses : usesDeviation rc = true) (hgood : ModeGood c .standby v r)
    (hlimit : bwSearch rc.freqDeviationHz rc.bitRateBps (isOok c rc.modulationFlags) = none) :
    Acts c (setConfig rc) (Res.err (.bandwidthRange (bwTarget rc.freqDeviationHz rc.bitRateBps))) (configHeadOps c rc v r)
      (modeAnswers c .standby v r) m (some .standby) := by
  refine (acts_setConfig (ops := []) (vs := []) m hok hgood ?_).cast (List.append_nil _) (List.append_nil _)
  constructor
  rintro s rfl _ hm _
  refine ⟨s, ?_, .refl s, hm⟩
  simp only [huses, if_true, searchAndWriteBw, hlimit]

theorem setConfigRefusal_eq_none {c : Config} {rc : RadioConfig} (hok : configOk c = true)
    (hcarrier : rc.carrierFreqHz ≤ 1023999969) (hrate : rc.bitRateBps = 0 ∨ 489 ≤ rc.bitRateBps)
    (hdev : rc.bitRateBps = 0 ∨ rc.freqDeviationHz ≤ 3999969) : setConfigRefusal c rc = none := by
  rw [setConfigRefusal_of_configOk hok, check_eq_none, decide_eq_true ((frfValue_lt_iff rc.carrierFreqHz).2 hcarrier)]
  rcases Nat.eq_zero_or_pos rc.bitRateBps with hzero | hpos
  · simp [hzero, usesDeviation]
  · have hbr := (brValue_lt_iff hpos).2 (hrate.resolve_left hpos.ne')
    have hfd := (fdValue_lt_iff rc.freqDeviationHz).2 (hdev.resolve_left hpos.ne')
    rw [decide_eq_true hbr, decide_eq_true hfd, Bool.or_true, Bool.or_true]
    rfl

theorem ConfigInRange.not_refused {c : Config} {rc : RadioConfig} (h : ConfigInRange c rc) (hok : configOk c = true) :
    setConfigRefusal c rc = none := by
  obtain ⟨_, hcarrier, hrate, hdev, _⟩ := h
  exact setConfigRefusal_eq_none hok hcarrier hrate hdev

theorem configHeadOps_transfer (c : Config) (rc : RadioConfig) (v r : Byte) :
    (configHeadOps c rc v r).any Op.isTransfer = true := by
  simp [configHeadOps, modeOps_transfer]

theorem configOps_transfer (c : Config) (rc : RadioConfig) (v r w w' : Byte) :
    (configOps c rc v r w w').any Op.isTransfer = true := by
  rw [configOps, List.any_append, configHeadOps_transfer, Bool.true_or]

/-- Settles O37: the writes of R109 in order, up to the bandwidth of the pair found. -/
theorem setConfigCompletes : Obligations.SetConfigCompletes := by
  intro s rc v r w w' hready hok hin hgood hs
  obtain ⟨t, es, ht, hreturned, hdescribed, hmirror, hregs⟩ := command_completes (i := .setConfig rc)
    (body := fun s => (setConfig rc s).bind fun _ s => .ok .done s) hready hin.1 (hin.not_refused hok)
    Instr.noConfusion rfl (completes_setConfig w w' s.modeMirror hok hin hgood) (.of_answers hs) (configOps_transfer ..)
  exact ⟨t, es, ht, hreturned, hdescribed, hmirror, hregs hs.1⟩

/-- Settles O38: the search fails after FDEV is written. -/
theorem bandwidthRangeErrorKeepsWrites : Obligations.BandwidthRangeErrorKeepsWrites := by
  intro s rc v r hready hok hwf hcarrier hrate hdev hdevmax hlimit hgood hs
  have hnone := (bandwidthSearchIsSmallest.2.2.2 _ _ _).2 hlimit
  have huses : usesDeviation rc = true := usesDeviation_iff.2 ⟨by omega, hdev⟩
  obtain ⟨t, ht, hscript, hm⟩ := raises_setConfig s.modeMirror hok huses hgood hnone |>.run (startCommand s) rfl hready.2 rfl
    (.of_answers (s := startCommand s) hs)
  obtain ⟨u, es, hu, hraised, hdescribed, hmirror, hradio⟩ := command_script_error (i := .setConfig rc)
    (body := fun s => (setConfig rc s).bind fun _ s => .ok .done s) hready hwf
    (setConfigRefusal_eq_none hok hcarrier (.inr hrate) (.inr hdevmax)) rfl (by rw [ht]; rfl) hscript
    (configHeadOps_transfer ..)
  exact ⟨u, es, hu, hraised, hdescribed, hmirror.trans hm, by rw [hradio]; exact (hscript.bus.oracle_regs hs.1).2⟩

/-! ## TRANSMIT (R113 to R116) -/

theorem completes_pushPreamble (c : Config) (pre : Option (List Byte)) (m : Option Mode) :
    Completes c (pushPreamble pre) (if pre.getD [] = [] then [] else [.write c.regs.fifo (pre.getD [])]) [] m m := by
  unfold pushPreamble
  cases hpre : pre.getD [] with
  | nil => exact completes_nothing c m
  | cons b bs =>
    exact Acts.of_cfg (f := fun c => regWrite c.regs.fifo (b :: bs))
      (completes_write m (List.cons_ne_nil b bs) (burstFits_iff.2 (.inl rfl)))

theorem completes_pollPacketSent {c : Config} {v : Byte} (m : Option Mode) (hv : packetSent c v = true) :
    Completes c pollPacketSent [.read c.regs.irqflags2 v] [v] m m := by
  constructor
  rintro s rfl hidle rfl hs
  obtain ⟨ws, hs⟩ := hs.answers
  have hreply := radioReply_of_answers s.cfg.regs.irqflags2 hs
  obtain ⟨n, hn⟩ := pollReads_pos tTxTimeout s.cfg.tTxPoll.us
  have hread := script_read hidle s.cfg.regs.irqflags2
  rw [hreply] at hread
  refine ⟨_, ?_, hread, rfl⟩
  rw [pollPacketSent, hn, poll_hit hidle (by rwa [hreply])]
  rfl

/-- R115, R116: TRANSMIT's rule on a radio whose polls succeed at once. -/
theorem completes_transmit {c : Config} {pre : Option (List Byte)} {payload : List Byte} {q : TxAnswers} (m : Option Mode)
    (hpayload : payload ≠ []) (hgood : q.Good c) :
    Completes c (transmit pre payload) (transmitOps c pre payload q) (q.list c) m (some .standby) := by
  obtain ⟨hstandby, htx, hsent, hagain⟩ := hgood
  have hall := (completes_setMode m hstandby).bind <| (completes_pushPreamble c pre _).bind <| Acts.bind
    (Acts.of_cfg (f := fun c => regWrite c.regs.fifo payload)
      (completes_write _ hpayload (burstFits_iff.2 (.inl rfl)))) <|
    (completes_setMode _ htx).bind <| (completes_pollPacketSent _ hsent).bind (completes_setMode _ hagain)
  exact hall.cast (by simp [transmitOps]) (by simp [TxAnswers.list])

theorem transmitRefusal_eq_none {c : Config} {pre : Option (List Byte)} {payload : List Byte} (hpayload : payload ≠ [])
    (hfits : (pre.getD []).length + payload.length ≤ c.fifoSize) : transmitRefusal c pre payload = none := by
  simp [transmitRefusal, hpayload, hfits]

theorem transmitOps_transfer (c : Config) (pre : Option (List Byte)) (payload : List Byte) (q : TxAnswers) :
    (transmitOps c pre payload q).any Op.isTransfer = true := by
  simp [transmitOps, modeOps_transfer]

/-- R116: the transfers of a TRANSMIT whose first mode change finds STANDBY and whose others are real changes. -/
theorem transmitOps_count {c : Config} {pre : Option (List Byte)} {payload : List Byte} {q : TxAnswers}
    (h1 : modeField c q.opmode1 = modeCode .standby) (h2 : modeField c q.opmode2 ≠ modeCode .tx)
    (h3 : modeField c q.opmode3 ≠ modeCode .standby) :
    (transmitOps c pre payload q).countP Op.isTransfer = if pre.getD [] = [] then 9 else 10 := by
  rw [transmitOps, modeOps, modeOps, modeOps, if_pos h1, if_neg h2, if_neg h3]
  split <;> rfl

/-- Settles O41: R115's steps in order. -/
theorem transmitCompletes : Obligations.TransmitCompletes := by
  intro s pre payload q hready hwf hpayload hfits hgood hs
  obtain ⟨t, es, ht, hreturned, hdescribed, hmirror, hregs⟩ := command_completes (i := .transmit pre payload)
    (body := fun s => (transmit pre payload s).bind fun _ s => .ok .done s) hready hwf
    (transmitRefusal_eq_none hpayload hfits) Instr.noConfusion rfl (completes_transmit s.modeMirror hpayload hgood)
    (.of_answers hs) (transmitOps_transfer ..)
  exact ⟨t, es, ht, hreturned, hdescribed, hmirror, hregs hs.1, fun h1 h2 h3 => by
    rw [hdescribed.transferCount, transmitOps_count h1 h2 h3]⟩

/-! ## EV_SEND and LS_SEND (R120, R130, R131) -/

theorem Res.bind_assoc {α β γ : Type} (r : Res α) (f : α → State → Res β) (g : β → State → Res γ) :
    (r.bind f).bind g = r.bind fun a s => (f a s).bind g := by
  cases r <;> rfl

/-- The radio configuration of a codec send, at its bit rate (R120, R129). -/
def sendConfig (c : Config) (rate : Nat) : RadioConfig where
  carrierFreqHz := carrierHz
  freqDeviationHz := deviationHz
  bitRateBps := rate
  modulationFlags := c.modflagsOok

theorem configOk_isOok {c : Config} (h : configOk c = true) : isOok c c.modflagsOok = true := by
  simp only [configOk, Bool.and_eq_true] at h
  tauto

theorem configOk_sendFraming {c : Config} (h : configOk c = true) {f : FramingConfig} (hf : c.sendFraming = some f) :
    f.wf = true := by
  simp only [configOk, Bool.and_eq_true, hf] at h
  tauto

/-- A codec send's configuration is in range for rates that fit their register and leave a bandwidth to find. -/
theorem sendConfig_inRange {c : Config} {rate : Nat} (hok : configOk c = true) (hmin : 489 ≤ rate) (hmax : rate < 125000) :
    ConfigInRange c (sendConfig c rate) := by
  refine ⟨?_, (by decide : 433920000 ≤ 1023999969), .inr hmin, .inr (by decide : 50000 ≤ 3999969), fun _ _ => ?_⟩
  · have hrate : rate < 4294967296 := by omega
    simp only [RadioConfig.wf, sendConfig, carrierHz, deviationHz, Nat.reducePow, hrate, decide_true, Bool.and_true]
    rfl
  · show max 50000 (2 * rate) < if isOok c c.modflagsOok = true then 250000 else 500000
    rw [if_pos (configOk_isOok hok)]
    omega

theorem sendFramingRefusal_eq_none {c : Config} (hok : configOk c = true) : sendFramingRefusal c = none := by
  unfold sendFramingRefusal
  cases hf : c.sendFraming with
  | none => rfl
  | some f =>
    have hwf := configOk_sendFraming hok hf
    simp [hwf, setFramingRefusal_eq_none hok hwf]

theorem completes_sendFraming {c : Config} (m : Option Mode) (hok : configOk c = true) :
    Completes c sendFraming (sendFramingOps c) [] m m := by
  refine Acts.of_cfg (f := fun c s => match c.sendFraming with
    | none => .ok () s
    | some f => setFraming f s) ?_
  unfold sendFramingOps
  cases hf : c.sendFraming with
  | none => exact completes_nothing c m
  | some f => exact completes_setFraming m hok (configOk_sendFraming hok hf)

/-- R120, R131: what both codec sends do before they transmit. -/
theorem completes_sendSetup {c : Config} {rate : Config → Nat} {v r : Byte} (w w' : Byte) (m : Option Mode)
    (hok : configOk c = true) (hmin : 489 ≤ rate c) (hmax : rate c < 125000) (hgood : ModeGood c .standby v r) :
    Completes c (fun s => (setConfig (sendConfig s.cfg (rate s.cfg)) s).bind fun _ s => sendFraming s)
      (configOps c (sendConfig c (rate c)) v r w w' ++ sendFramingOps c) (configAnswers c (sendConfig c (rate c)) v r w w') m
      (some .standby) :=
  ((Acts.of_cfg (f := fun c => setConfig (sendConfig c (rate c)))
    (completes_setConfig w w' m hok (sendConfig_inRange hok hmin hmax) hgood)).bind (completes_sendFraming _ hok)).cast rfl
    (List.append_nil _)

theorem sendOps_transfer (c : Config) (rc : RadioConfig) (v r w w' : Byte) (ops : List Op) :
    (configOps c rc v r w w' ++ sendFramingOps c ++ ops).any Op.isTransfer = true := by
  rw [List.append_assoc, List.any_append, configOps_transfer, Bool.true_or]

theorem evPayload_length (code : BitVec 32) : (evPayload code).length = 13 := by
  rw [evPayload, List.length_append, evData_length]
  rfl

theorem evSendRefusal_eq_none {c : Config} (code : BitVec 32) (hok : configOk c = true) (hmin : 489 ≤ c.evBitrateBps)
    (hmax : c.evBitrateBps < 125000) (hfifo : 17 ≤ c.fifoSize) : evSendRefusal c code = none := by
  have hconfig : setConfigRefusal c (evConfig c) = none := (sendConfig_inRange hok hmin hmax).not_refused hok
  have htransmit : transmitRefusal c (some evPreamble) (evPayload code) = none :=
    transmitRefusal_eq_none (evPayload_ne_nil code) (by rw [evPayload_length]; exact hfifo)
  rw [evSendRefusal, hconfig, sendFramingRefusal_eq_none hok, htransmit]
  rfl

/-- Settles O47: SET_CONFIG, SEND_FRAMING and one TRANSMIT. -/
theorem evSendCompletes : Obligations.EvSendCompletes := by
  intro s code v r w w' q hready hok hmin hmax hfifo hgood hq rc hs
  have hcompletes := (completes_sendSetup (rate := (·.evBitrateBps)) w w' s.modeMirror hok hmin hmax hgood).bind
    (completes_transmit (pre := some evPreamble) (payload := evPayload code) _ (evPayload_ne_nil code) hq)
  obtain ⟨t, es, ht, hreturned, hdescribed, hmirror, hregs⟩ := command_completes (i := .evSend code)
    (body := fun s => (setConfig (evConfig s.cfg) s).bind fun _ s => (sendFraming s).bind fun _ s =>
      (transmit (some evPreamble) (evPayload code) s).bind fun _ s => .ok .done s)
    hready rfl (evSendRefusal_eq_none code hok hmin hmax hfifo) Instr.noConfusion
    (by simp only [Res.bind_assoc]; rfl) hcompletes (.of_answers hs) (sendOps_transfer ..)
  exact ⟨t, es, ht, hreturned, hdescribed, hmirror, hregs hs.1⟩

theorem lsPayload_length (code : BitVec 32) (st : Option LsState) : (lsPayload code st).length = 14 := by
  rw [lsPayload, List.length_append, lsData_length]
  rfl

theorem lsTriple_length (c : Config) (code : BitVec 32) (st : Option LsState) : (lsTriple c code st).length = 63 := by
  simp [lsTriple, lsFrame, lsPreamble_length, lsPayload_length]

/-- The FIFO an LS_SEND needs, in each repeat style (R130). -/
theorem lsTransmitRefusal_eq_none {c : Config} (code : BitVec 32) (st : Option LsState)
    (hfifo : (match c.lsRepeatStyle with | .separate => 21 | .concat => 63) ≤ c.fifoSize) :
    lsTransmitRefusal c code st = none := by
  unfold lsTransmitRefusal
  cases hstyle : c.lsRepeatStyle with
  | separate =>
    rw [hstyle] at hfifo
    exact transmitRefusal_eq_none (lsPayload_ne_nil _ _)
      (by rw [Option.getD_some, lsPreamble_length, lsPayload_length]; exact hfifo)
  | concat =>
    rw [hstyle] at hfifo
    exact transmitRefusal_eq_none (lsTriple_ne_nil _ _ _) (by rw [lsTriple_length]; exact hfifo)

theorem completes_transmitTriple {c : Config} {pre : Option (List Byte)} {payload : List Byte} {q1 q2 q3 : TxAnswers}
    (m : Option Mode) (hpayload : payload ≠ []) (h1 : q1.Good c) (h2 : q2.Good c) (h3 : q3.Good c) :
    Completes c (transmitTimes pre payload 3)
      (transmitOps c pre payload q1 ++ (transmitOps c pre payload q2 ++ transmitOps c pre payload q3))
      (q1.list c ++ (q2.list c ++ q3.list c)) m (some .standby) :=
  ((completes_transmit m hpayload h1).bind <| (completes_transmit _ hpayload h2).bind <|
    (completes_transmit _ hpayload h3).bind (completes_nothing c _)).cast (by simp) (by simp)

/-- The repeats are the ones of the style the parameters give. -/
theorem completes_lsRepeats {c : Config} {code : BitVec 32} {st : Option LsState} {ops : List Op} {vs : List Byte}
    {m m' : Option Mode}
    (h : Completes c (fun s => match c.lsRepeatStyle with
      | .separate => transmitTimes (some (lsPreamble c)) (lsPayload code st) lsRepeat s
      | .concat => transmit none (lsTriple c code st) s) ops vs m m') : Completes c (lsRepeats code st) ops vs m m' :=
  Acts.of_cfg (f := fun c s => match c.lsRepeatStyle with
    | .separate => transmitTimes (some (lsPreamble c)) (lsPayload code st) lsRepeat s
    | .concat => transmit none (lsTriple c code st) s) h

/-- LS_SEND, given what its repeats do. -/
theorem exec_lsSend_completes {s : State} {code : BitVec 32} {st : Option LsState} {v r w w' : Byte} {ops : List Op}
    {vs : List Byte} (hready : Ready s) (hok : configOk s.cfg = true) (hmin : 489 ≤ s.cfg.lsBitrateBps)
    (hmax : s.cfg.lsBitrateBps < 125000) (hgood : ModeGood s.cfg .standby v r)
    (hfifo : lsTransmitRefusal s.cfg code st = none)
    (hrepeats : Completes s.cfg (lsRepeats code st) ops vs (some .standby) (some .standby))
    (hs : Answers s (configAnswers s.cfg (lsConfig s.cfg) v r w w' ++ vs)) :
    ∃ t es, exec (.lsSend code st) s = .next t ∧ Returned s t .done es ∧
      Described (configOps s.cfg (lsConfig s.cfg) v r w w' ++ sendFramingOps s.cfg ++ ops) es ∧
      t.modeMirror = some .standby ∧ t.radio.regs = s.radio.regs := by
  have hconfig : setConfigRefusal s.cfg (lsConfig s.cfg) = none := (sendConfig_inRange hok hmin hmax).not_refused hok
  have hrefusal : lsSendRefusal s.cfg code st = none := by
    rw [lsSendRefusal, hconfig, sendFramingRefusal_eq_none hok, hfifo]
    rfl
  have hcompletes := (completes_sendSetup (rate := (·.lsBitrateBps)) w w' s.modeMirror hok hmin hmax hgood).bind hrepeats
  obtain ⟨t, es, ht, hreturned, hdescribed, hmirror, hregs⟩ := command_completes (i := .lsSend code st)
    (body := fun s => (setConfig (lsConfig s.cfg) s).bind fun _ s => (sendFraming s).bind fun _ s =>
      (lsRepeats code st s).bind fun _ s => .ok .done s)
    hready rfl hrefusal Instr.noConfusion (by simp only [Res.bind_assoc]; rfl) hcompletes (.of_answers hs)
    (sendOps_transfer ..)
  exact ⟨t, es, ht, hreturned, hdescribed, hmirror, hregs hs.1⟩

/-- Settles O51: the three TRANSMITs, or the one that carries the three frames. -/
theorem lsSendCompletes : Obligations.LsSendCompletes := by
  intro s code st v r w w' q1 q2 q3 hready hok hmin hmax hgood h1 h2 h3 rc pre payload
  refine ⟨fun hstyle hfifo hs => ?_, fun hstyle hfifo hs => ?_⟩
  · have hrepeats : Completes s.cfg (lsRepeats code st)
        (transmitOps s.cfg (some pre) payload q1 ++
          (transmitOps s.cfg (some pre) payload q2 ++ transmitOps s.cfg (some pre) payload q3))
        (q1.list s.cfg ++ (q2.list s.cfg ++ q3.list s.cfg)) (some .standby) (some .standby) := by
      refine completes_lsRepeats ?_
      rw [hstyle]
      exact completes_transmitTriple _ (lsPayload_ne_nil _ _) h1 h2 h3
    rw [List.append_assoc, List.append_assoc] at hs ⊢
    exact exec_lsSend_completes hready hok hmin hmax hgood
      (lsTransmitRefusal_eq_none code st (by rw [hstyle]; exact hfifo)) hrepeats hs
  · have hrepeats : Completes s.cfg (lsRepeats code st)
        (transmitOps s.cfg none ((pre ++ payload) ++ (pre ++ payload) ++ (pre ++ payload)) q1) (q1.list s.cfg)
        (some .standby) (some .standby) := by
      refine completes_lsRepeats ?_
      rw [hstyle, List.append_assoc]
      exact completes_transmit _ (lsTriple_ne_nil _ _ _) h1
    exact exec_lsSend_completes hready hok hmin hmax hgood
      (lsTransmitRefusal_eq_none code st (by rw [hstyle]; exact hfifo)) hrepeats hs

end Sys2Proof.Machine
end

section
/-! PROOF. The codecs (44_codec_ev1527.md and 45_codec_lightstrip.md, section 4): the chips of the EV1527 frame, and what each
decoder does with one byte. -/

namespace Sys2Proof.Machine

/-! ## The chips of the EV1527 frame (R49) -/

theorem chips_append (xs ys : List Byte) : chips (xs ++ ys) = chips xs ++ chips ys := List.flatMap_append

/-- R76: the chips of a code bit. -/
def evBitChips (bit : Bool) : List Bool := if bit then [true, true, true, false] else [true, false, false, false]

theorem evBitChips_length (bit : Bool) : (evBitChips bit).length = 4 := by cases bit <;> rfl

theorem chips_nibbles (hi lo : Bool) : chips [nibbles (evNibble hi) (evNibble lo)] = evBitChips hi ++ evBitChips lo := by
  cases hi <;> cases lo <;> rfl

/-- Taking the elements of a range in pairs. -/
theorem flatMap_range_two_mul {α : Type} (f : Nat → List α) (n : Nat) :
    (List.range (2 * n)).flatMap f = (List.range n).flatMap fun k => f (2 * k) ++ f (2 * k + 1) := by
  induction n with
  | zero => rfl
  | succ n ih =>
    rw [Nat.mul_succ, List.range_succ, List.range_succ, List.range_succ]
    simp [ih]

theorem chips_evData (code : BitVec 32) :
    chips (evData code) = (List.range 24).flatMap fun k => evBitChips (code.getLsbD (23 - k)) := by
  have hbytes : chips (evData code) = (List.range 12).flatMap fun k => chips [evDataByte code k] := by
    simp [chips, evData, evFrameBytes, List.flatMap_map]
  rw [hbytes, flatMap_range_two_mul (n := 12)]
  refine congrArg (List.flatMap · _) (funext fun k => ?_)
  rw [evDataByte, chips_nibbles, Nat.sub_add_eq, Nat.sub_right_comm]

/-- Settles O46: the preamble, two code bits of each data byte, and the terminator. -/
theorem evFrameOnAir : Obligations.EvFrameOnAir := by
  intro code
  have hframe : chips (evPreamble ++ evPayload code) = chips evPreamble ++ chips (evData code) ++ chips [evTerminator] := by
    rw [evPayload, chips_append, chips_append, List.append_assoc]
  refine ⟨?_, ?_⟩
  · rw [hframe, chips_evData, List.append_assoc _ [true]]
    rfl
  · rw [hframe, chips_evData, List.length_append, List.length_append, List.length_flatMap]
    simp only [evBitChips_length]
    rfl

/-! ## Values of shifted bits -/

/-- The value of bits shifted in one after the other, the first the most significant. -/
def bitsValue (bits : List Bool) : Nat := bits.foldl shiftIn 0

theorem bitsValue_concat (bits : List Bool) (b : Bool) : bitsValue (bits ++ [b]) = Nat.bit b (bitsValue bits) := by
  rw [bitsValue, List.foldl_append, Nat.bit_val]
  rfl

theorem bitsValue_lt (bits : List Bool) : bitsValue bits < 2 ^ bits.length := by
  induction bits using List.reverseRecOn with
  | nil => exact Nat.one_pos
  | append_singleton bits b ih =>
    rw [bitsValue_concat, List.length_append, List.length_singleton]
    exact Nat.bit_lt_two_pow_succ_iff.2 ih

theorem getElem?_eq_testBit_bitsValue {bits : List Bool} {k : Nat} (hk : k < bits.length) :
    bits[k]? = some ((bitsValue bits).testBit (bits.length - 1 - k)) := by
  induction bits using List.reverseRecOn with
  | nil => exact absurd hk (Nat.not_lt_zero k)
  | append_singleton bits b ih =>
    rw [bitsValue_concat, List.length_append, List.length_singleton, Nat.add_sub_cancel]
    rw [List.length_append, List.length_singleton] at hk
    rcases Nat.lt_or_ge k bits.length with hlt | hge
    · have hsub : bits.length - k = bits.length - 1 - k + 1 := by omega
      rw [List.getElem?_append_left hlt, ih hlt, hsub, Nat.testBit_bit_succ]
    · obtain rfl : k = bits.length := by omega
      rw [List.getElem?_concat_length, Nat.sub_self, Nat.testBit_bit_zero]

/-- R121: the bits of a data byte. -/
def evByteBits (x : Byte) : List Bool := [highNibble x == 0xE, lowNibble x == 0xE]

theorem evValue_eq_bitsValue (acc : List Byte) : evValue acc = bitsValue (acc.flatMap evByteBits) := by
  rw [bitsValue, List.foldl_flatMap]
  rfl

/-- R132: the bits of a data byte; a zero low nibble contributes none. -/
def lsByteBits (x : Byte) : List Bool :=
  (highNibble x == 0x7) :: if lowNibble x = 0x0 then [] else [lowNibble x == 0x7]

theorem lsShiftByte_eq_foldl (v : Nat) (x : Byte) : lsShiftByte v x = (lsByteBits x).foldl shiftIn v := by
  unfold lsShiftByte lsByteBits
  split <;> rfl

theorem lsValue_eq_bitsValue (acc : List Byte) : lsValue acc = bitsValue (acc.flatMap lsByteBits) := by
  rw [bitsValue, List.foldl_flatMap, lsValue]
  exact congrArg (fun f => acc.foldl f 0) (funext₂ lsShiftByte_eq_foldl)

theorem evByteBits_length (acc : List Byte) : (acc.flatMap evByteBits).length = 2 * acc.length := by
  induction acc with
  | nil => rfl
  | cons x acc ih =>
    rw [List.flatMap_cons, List.length_append, ih, List.length_cons, Nat.mul_succ, Nat.add_comm]
    rfl

theorem evByteBits_getElem? {acc : List Byte} {k : Nat} {x : Byte} (h : acc[k]? = some x) :
    (acc.flatMap evByteBits)[2 * k]? = some (highNibble x == 0xE) ∧
      (acc.flatMap evByteBits)[2 * k + 1]? = some (lowNibble x == 0xE) := by
  induction acc generalizing k with
  | nil => simp at h
  | cons y acc ih =>
    cases k with
    | zero =>
      obtain rfl : y = x := by simpa using h
      exact ⟨rfl, rfl⟩
    | succ k => exact ih (by simpa using h)

/-- R121: where the bits of byte `k` of a full frame stand in its value. -/
theorem evValue_testBit {acc : List Byte} {k : Nat} {x : Byte} (hlen : acc.length = 12) (hx : acc[k]? = some x) :
    (evValue acc).testBit (23 - 2 * k) = (highNibble x == 0xE) ∧
      (evValue acc).testBit (22 - 2 * k) = (lowNibble x == 0xE) := by
  have hk : k < 12 := hlen ▸ (List.getElem?_eq_some_iff.1 hx).1
  have hbits : (acc.flatMap evByteBits).length = 24 := by rw [evByteBits_length, hlen]
  obtain ⟨hhi, hlo⟩ := evByteBits_getElem? hx
  rw [getElem?_eq_testBit_bitsValue (by omega), hbits, ← evValue_eq_bitsValue] at hhi hlo
  exact ⟨Option.some.inj hhi, by rw [← Option.some.inj hlo]; congr 1; omega⟩

/-! ## One byte (R121, R132) -/

theorem timeOrderRefusal_eq_some {last : Option Nat} {u t : Nat} (hlast : last = some u) (ht : t < u) :
    timeOrderRefusal last t = some .timeOrder := by
  rw [hlast]
  exact check_eq_some.2 ⟨decide_eq_false (Nat.not_le.2 ht), rfl⟩

/-- A READY or UNINIT block refuses a decoder's byte that its time-order check refuses. -/
theorem command_earlier {i : Instr} {body : State → Res CmdResult} {last : Option Nat} {u t : Nat} {s : State}
    (hp : CodecPhase s) (hi : admittedUninit i.name = true) (hwf : i.wf = true) (hlast : last = some u) (ht : t < u) :
    command i (timeOrderRefusal last t) body s = .next (refuse .timeOrder s) := by
  have hphase : phaseRefusal i.name s = none := phaseRefusal_eq_none.2 (hp.imp_right fun hu => ⟨hu, hi⟩)
  refine command_refused ?_
  rw [timeOrderRefusal_eq_some hlast ht]
  simp [admission, hphase, operandChecks, hwf, check]

theorem accAt_of_expired {limit last : Option Nat} {l u t : Nat} (hlimit : limit = some l) (hlast : last = some u)
    (hgap : l < t - u) (acc : List Byte) : accAt limit acc last t = [] := by
  rw [hlimit, hlast]
  exact if_pos hgap

theorem accAt_of_not_expired {limit last : Option Nat} {t : Nat}
    (h : ¬ ∃ l u, limit = some l ∧ last = some u ∧ l < t - u) (acc : List Byte) : accAt limit acc last t = acc := by
  cases limit with
  | none => rfl
  | some l =>
    cases last with
    | none => rfl
    | some u => exact if_neg fun hgap => h ⟨l, u, rfl, rfl, hgap⟩

/-- What is kept at a time is kept at that time. -/
theorem accAt_accAt (limit : Option Nat) (acc : List Byte) (last : Option Nat) (t : Nat) :
    accAt limit (accAt limit acc last t) last t = accAt limit acc last t := by
  rcases accAt_eq_or limit acc last t with hacc | hacc
  · rw [hacc, hacc]
  · rw [hacc, accAt_nil]

theorem evDecodeStep_accAt (width : DecodeWidth) (acc : List Byte) (last : Option Nat) (b : Byte) (t : Nat) :
    evDecodeStep width acc last b t = evDecodeStep width (accAt (some tEvDecodeTimeout) acc last t) last b t := by
  simp only [evDecodeStep, accAt_accAt]

theorem lsDecodeStep_accAt (limit : Option Nat) (acc : List Byte) (last : Option Nat) (b : Byte) (t : Nat) :
    lsDecodeStep limit acc last b t = lsDecodeStep limit (accAt limit acc last t) last b t := by
  simp only [lsDecodeStep, accAt_accAt]

theorem evDecodeStep_invalid {b : Byte} (hb : evByteOk b = false) (width : DecodeWidth) (acc : List Byte) (last : Option Nat)
    (t : Nat) : evDecodeStep width acc last b t = (none, []) := by
  simp [evDecodeStep, hb]

theorem lsDecodeStep_invalid {b : Byte} (hb : lsByteOk b = false) (limit : Option Nat) (acc : List Byte) (last : Option Nat)
    (t : Nat) : lsDecodeStep limit acc last b t = (none, []) := by
  simp [lsDecodeStep, hb]

theorem evByteOk_iff {b : Byte} :
    evByteOk b = true ↔ (highNibble b = 0x8 ∨ highNibble b = 0xE) ∧ (lowNibble b = 0x8 ∨ lowNibble b = 0xE) := by
  simp [evByteOk]

theorem lsByteOk_iff {b : Byte} :
    lsByteOk b = true ↔
      (highNibble b = 0x4 ∨ highNibble b = 0x7) ∧ (lowNibble b = 0x0 ∨ lowNibble b = 0x4 ∨ lowNibble b = 0x7) := by
  simp [lsByteOk, or_assoc]

/-- Settles O48: the refusal of an earlier time, then the three cases of R121 for the byte. -/
theorem evDecodeStep_spec : Obligations.EvDecodeStep := by
  intro s b t hp ht _
  refine ⟨fun u hlast hu => ?earlier, fun horder => ?taken⟩
  case earlier => exact command_earlier hp rfl (decide_eq_true ht) hlast hu
  case taken =>
    have hrun := exec_evDecode (b := b) hp ht (timeOrderRefusal_eq_none horder)
    have hkept := accAt_accAt (some tEvDecodeTimeout) s.evAcc s.evLast t
    rw [evDecodeStep_accAt] at hrun
    refine ⟨accAt (some tEvDecodeTimeout) s.evAcc s.evLast t, fun ⟨u, hlast, hgap⟩ => accAt_of_expired rfl hlast hgap _,
      fun hgap => accAt_of_not_expired ?_ _, fun hb => ?invalid, fun hb hlen => ?partly, fun hb hlen => ?complete⟩
    · rintro ⟨_, u, hlimit, hlast, hlt⟩
      obtain rfl := Option.some.inj hlimit
      exact hgap ⟨u, hlast, hlt⟩
    case invalid => rwa [evDecodeStep_invalid (Bool.eq_false_iff.2 fun hok => hb (evByteOk_iff.1 hok))] at hrun
    case partly => rwa [evDecodeStep_partial hkept (evByteOk_iff.2 hb) hlen] at hrun
    case complete =>
      rw [evDecodeStep_complete hkept (evByteOk_iff.2 hb) hlen] at hrun
      have hfull : (accAt (some tEvDecodeTimeout) s.evAcc s.evLast t ++ [b]).length = 12 := by
        rw [List.length_append, hlen]
        rfl
      refine ⟨evValue (accAt (some tEvDecodeTimeout) s.evAcc s.evLast t ++ [b]), ?_, fun k x hx => ?_, hrun⟩
      · rw [evValue_eq_bitsValue]
        exact (bitsValue_lt _).trans_eq (by rw [evByteBits_length, hfull])
      · obtain ⟨hhi, hlo⟩ := evValue_testBit hfull hx
        rw [hhi, hlo]
        exact ⟨beq_iff_eq, beq_iff_eq⟩

/-- Settles O52: the refusal of an earlier time, then the three cases of R132 for the byte. -/
theorem lsDecodeStep_spec : Obligations.LsDecodeStep := by
  intro s b t hp ht _
  refine ⟨fun u hlast hu => ?earlier, fun horder => ?taken⟩
  case earlier => exact command_earlier hp rfl (decide_eq_true ht) hlast hu
  case taken =>
    have hrun := exec_lsDecode (b := b) hp ht (timeOrderRefusal_eq_none horder)
    have hkept := accAt_accAt s.cfg.lsDecodeTimeout s.lsAcc s.lsLast t
    rw [lsDecodeStep_accAt] at hrun
    refine ⟨accAt s.cfg.lsDecodeTimeout s.lsAcc s.lsLast t,
      fun ⟨l, u, hlimit, hlast, hgap⟩ => accAt_of_expired hlimit hlast hgap _, fun hgap => accAt_of_not_expired hgap _,
      fun hb => ?invalid, fun hb hlen => ?partly, fun hb hlen => ?complete⟩
    case invalid => rwa [lsDecodeStep_invalid (Bool.eq_false_iff.2 fun hok => hb (lsByteOk_iff.1 hok))] at hrun
    case partly => rwa [lsDecodeStep_partial hkept (lsByteOk_iff.2 hb) hlen] at hrun
    case complete =>
      rw [lsDecodeStep_complete hkept (lsByteOk_iff.2 hb) hlen, lsValue_eq_bitsValue] at hrun
      exact ⟨_, bitsValue_lt _, fun k hk => getElem?_eq_testBit_bitsValue hk, hrun⟩

end Sys2Proof.Machine
end

section
/-! PROOF. The bandwidth and sync-configuration registers (R72, R73, R108): fields put beside one another in a byte. -/

namespace Sys2Proof.Machine

/-! ## Disjoint fields -/

/-- Fields whose masks share no bit share no position of the byte. -/
theorem not_inside_of_masks {lo w lo' w' k : Nat} (h : fieldMask lo w &&& fieldMask lo' w' = 0) (h8 : k < 8)
    (hk : lo ≤ k ∧ k < lo + w) : ¬ (lo' ≤ k ∧ k < lo' + w') := by
  intro hk'
  have hbit := congrArg (·.getLsbD k) h
  simp only [BitVec.getLsbD_and, fieldMask_getLsbD, decide_eq_true (⟨h8, hk⟩ : k < 8 ∧ lo ≤ k ∧ k < lo + w),
    decide_eq_true (⟨h8, hk'⟩ : k < 8 ∧ lo' ≤ k ∧ k < lo' + w')] at hbit
  exact absurd hbit (by simp)

theorem fieldPut_getLsbD_outside {lo w k : Nat} {x : Byte} (hx : x.toNat < 2 ^ w) (hk : ¬ (lo ≤ k ∧ k < lo + w)) :
    (fieldPut lo x).getLsbD k = false := by
  rw [fieldPut_getLsbD]
  by_cases hlo : lo ≤ k
  · simp [getLsbD_of_toNat_lt_two_pow hx (show w ≤ k - lo by omega)]
  · simp [hlo]

theorem fieldPut_zero (lo : Nat) : fieldPut lo 0 = 0 := BitVec.zero_shiftLeft lo

theorem fieldPut_getLsbD_inside {lo w k : Nat} (x : Byte) (hfit : lo + w ≤ 8) (hk : k < w) :
    (fieldPut lo x).getLsbD (lo + k) = x.getLsbD k := by
  have hbyte : lo + k < 8 := by omega
  rw [fieldPut_getLsbD, decide_eq_true ⟨hbyte, Nat.le_add_right lo k⟩, Bool.true_and, Nat.add_sub_cancel_left]

/-- A field reads the value whose bits it holds. -/
theorem fieldGet_eq {lo w : Nat} {v x : Byte} (hx : x.toNat < 2 ^ w) (hv : ∀ k, k < w → v.getLsbD (lo + k) = x.getLsbD k) :
    fieldGet lo w v = x := by
  refine BitVec.eq_of_getLsbD_eq fun k _ => ?_
  rw [fieldGet_getLsbD]
  by_cases hk : k < w
  · simp [hk, hv k hk]
  · simp [hk, getLsbD_of_toNat_lt_two_pow hx (Nat.le_of_not_lt hk)]

/-- The bandwidth fields fit their byte and share no bit. -/
theorem configOk_bandwidth {c : Config} (h : configOk c = true) :
    c.fields.rxbwMant.val + 2 ≤ 8 ∧ c.fields.rxbwExp.val + 3 ≤ 8 ∧ c.fields.rxbwDcc.val + 3 ≤ 8 ∧
      fieldMask c.fields.rxbwMant 2 &&& fieldMask c.fields.rxbwExp 3 = 0 := by
  simp only [configOk, Bool.and_eq_true, decide_eq_true_eq] at h
  tauto

theorem configOk_syncSize {c : Config} (h : configOk c = true) : c.fields.syncSize.val + 3 ≤ 8 := by
  simp only [configOk, Bool.and_eq_true, decide_eq_true_eq] at h
  tauto

/-! ## The bandwidth registers (R72, R108) -/

/-- Every pair's mantissa code and exponent fit their fields. -/
theorem bwPairs_fit : ∀ p ∈ bwPairs, (mantissaCode p.1).toNat < 2 ^ 2 ∧ (BitVec.ofNat 8 p.2).toNat < 2 ^ 3 := by decide

section
variable {c : Config} {p : Nat × Nat} {k : Nat}

theorem bwBits_getLsbD_mant (hok : configOk c = true) (hp : p ∈ bwPairs) (hk : k < 2) :
    (bwBits c p).getLsbD (c.fields.rxbwMant.val + k) = (mantissaCode p.1).getLsbD k := by
  obtain ⟨hmant, _, _, hdisjoint⟩ := configOk_bandwidth hok
  rw [bwBits, BitVec.getLsbD_or, fieldPut_getLsbD_inside _ hmant hk, fieldPut_getLsbD_outside (bwPairs_fit p hp).2
    (not_inside_of_masks hdisjoint (by omega) (by omega)), Bool.or_false]

theorem bwBits_getLsbD_exp (hok : configOk c = true) (hp : p ∈ bwPairs) (hk : k < 3) :
    (bwBits c p).getLsbD (c.fields.rxbwExp.val + k) = (BitVec.ofNat 8 p.2).getLsbD k := by
  obtain ⟨_, hexp, _, hdisjoint⟩ := configOk_bandwidth hok
  rw [BitVec.and_comm] at hdisjoint
  rw [bwBits, BitVec.getLsbD_or, fieldPut_getLsbD_inside _ hexp hk, fieldPut_getLsbD_outside (bwPairs_fit p hp).1
    (not_inside_of_masks hdisjoint (by omega) (by omega)), Bool.false_or]

theorem bwBits_getLsbD_outside (hp : p ∈ bwPairs) (hm : ¬ (c.fields.rxbwMant.val ≤ k ∧ k < c.fields.rxbwMant.val + 2))
    (he : ¬ (c.fields.rxbwExp.val ≤ k ∧ k < c.fields.rxbwExp.val + 3)) : (bwBits c p).getLsbD k = false := by
  obtain ⟨hcode, hexponent⟩ := bwPairs_fit p hp
  rw [bwBits, BitVec.getLsbD_or, fieldPut_getLsbD_outside hcode hm, fieldPut_getLsbD_outside hexponent he, Bool.or_false]

theorem bwKeepMask_getLsbD (c : Config) (k : Nat) :
    (bwKeepMask c).getLsbD k = (decide (k < 8) && !(decide (c.fields.rxbwMant.val ≤ k ∧ k < c.fields.rxbwMant.val + 2) ||
      decide (c.fields.rxbwExp.val ≤ k ∧ k < c.fields.rxbwExp.val + 3))) := by
  rw [bwKeepMask, BitVec.getLsbD_not, BitVec.getLsbD_or, fieldMask_getLsbD, fieldMask_getLsbD]
  by_cases h8 : k < 8 <;> simp [h8]

/-- R108: the read-modify-write puts the pair in its fields and keeps every other bit. -/
theorem bwRmw_fields (hok : configOk c = true) (old : Byte) (hp : p ∈ bwPairs) :
    fieldGet c.fields.rxbwMant 2 ((old &&& bwKeepMask c) ||| bwBits c p) = mantissaCode p.1 ∧
    fieldGet c.fields.rxbwExp 3 ((old &&& bwKeepMask c) ||| bwBits c p) = BitVec.ofNat 8 p.2 ∧
    ∀ k, ¬ (c.fields.rxbwMant.val ≤ k ∧ k < c.fields.rxbwMant.val + 2) →
      ¬ (c.fields.rxbwExp.val ≤ k ∧ k < c.fields.rxbwExp.val + 3) →
      ((old &&& bwKeepMask c) ||| bwBits c p).getLsbD k = old.getLsbD k := by
  refine ⟨fieldGet_eq (bwPairs_fit p hp).1 fun k hk => ?_, fieldGet_eq (bwPairs_fit p hp).2 fun k hk => ?_,
    fun k hm he => ?_⟩
  · rw [BitVec.getLsbD_or, bwBits_getLsbD_mant hok hp hk, BitVec.getLsbD_and, bwKeepMask_getLsbD]
    simp [hk]
  · rw [BitVec.getLsbD_or, bwBits_getLsbD_exp hok hp hk, BitVec.getLsbD_and, bwKeepMask_getLsbD]
    simp [hk]
  · rw [BitVec.getLsbD_or, bwBits_getLsbD_outside hp hm he, BitVec.getLsbD_and, bwKeepMask_getLsbD, decide_eq_false hm,
      decide_eq_false he]
    by_cases h8 : k < 8
    · simp [h8]
    · simp [BitVec.getLsbD_of_ge _ _ (Nat.le_of_not_lt h8)]

/-- R108: a full write at disjoint fields holds the DCC constant and the pair. -/
theorem bwFullByte_fields (hok : configOk c = true)
    (hdisjoint : fieldMask c.fields.rxbwDcc 3 &&& (fieldMask c.fields.rxbwMant 2 ||| fieldMask c.fields.rxbwExp 3) = 0)
    (d : BitVec 3) (hp : p ∈ bwPairs) :
    fieldGet c.fields.rxbwDcc 3 (bwFullByte c d p) = d.setWidth 8 ∧
    fieldGet c.fields.rxbwMant 2 (bwFullByte c d p) = mantissaCode p.1 ∧
    fieldGet c.fields.rxbwExp 3 (bwFullByte c d p) = BitVec.ofNat 8 p.2 := by
  obtain ⟨hmant, hexp, hdcc, _⟩ := configOk_bandwidth hok
  obtain ⟨hdisjointMant, hdisjointExp⟩ : fieldMask c.fields.rxbwDcc 3 &&& fieldMask c.fields.rxbwMant 2 = 0 ∧
      fieldMask c.fields.rxbwDcc 3 &&& fieldMask c.fields.rxbwExp 3 = 0 := by
    rw [BitVec.and_or_distrib_left] at hdisjoint
    exact BitVec.or_eq_zero_iff.1 hdisjoint
  have hd : (d.setWidth 8 : Byte).toNat < 2 ^ 3 := by
    rw [BitVec.toNat_setWidth]
    exact (Nat.mod_le _ _).trans_lt d.isLt
  refine ⟨fieldGet_eq hd fun k hk => ?_, fieldGet_eq (bwPairs_fit p hp).1 fun k hk => ?_,
    fieldGet_eq (bwPairs_fit p hp).2 fun k hk => ?_⟩
  · rw [bwFullByte, BitVec.getLsbD_or, fieldPut_getLsbD_inside _ hdcc hk, bwBits_getLsbD_outside hp
      (not_inside_of_masks hdisjointMant (by omega) (by omega)) (not_inside_of_masks hdisjointExp (by omega) (by omega)),
      Bool.or_false]
  · rw [BitVec.and_comm] at hdisjointMant
    rw [bwFullByte, BitVec.getLsbD_or, bwBits_getLsbD_mant hok hp hk, fieldPut_getLsbD_outside hd
      (not_inside_of_masks hdisjointMant (by omega) (by omega)), Bool.false_or]
  · rw [BitVec.and_comm] at hdisjointExp
    rw [bwFullByte, BitVec.getLsbD_or, bwBits_getLsbD_exp hok hp hk, fieldPut_getLsbD_outside hd
      (not_inside_of_masks hdisjointExp (by omega) (by omega)), Bool.false_or]

end

/-- The bits of a pair at the default positions. -/
theorem bwBits_default {c : Config} (hc : c.fields = defaultFieldMap) :
    ∀ p ∈ bwPairs, bwBits c p = BitVec.ofNat 8 ((p.1 - 16) / 4 * 8 + p.2) := by
  unfold bwBits
  rw [hc]
  decide

theorem bwKeepMask_default {c : Config} (hc : c.fields = defaultFieldMap) : bwKeepMask c = 0xE0 := by
  rw [bwKeepMask, hc]
  decide

/-- R108: the full write at the default positions. -/
theorem bwFullByte_default {c : Config} (hc : c.fields = defaultFieldMap) :
    ∀ d, ∀ p ∈ bwPairs, bwFullByte c d p = BitVec.ofNat 8 (d.toNat * 32 + (p.1 - 16) / 4 * 8 + p.2) := by
  unfold bwFullByte bwBits
  rw [hc]
  decide

/-! ## The bandwidth a SET_CONFIG has sent (R109) -/

/-- A configuration that completed, with both quantities positive, found a pair and ended with its writes. -/
theorem setConfig_bandwidth {rc : RadioConfig} {s t : State} (k : setConfig rc s = .ok () t) (huses : usesDeviation rc = true) :
    ∃ p x, bwSearch rc.freqDeviationHz rc.bitRateBps (isOok s.cfg rc.modulationFlags) = some p ∧ Continues s x ∧
      writeRxBw p x = .ok () t := by
  obtain ⟨_, u, hmode, k⟩ := Res.bind_eq_ok k
  obtain ⟨_, v, hfrf, k⟩ := Res.bind_eq_ok k
  obtain ⟨_, w, hmodul, k⟩ := Res.bind_eq_ok k
  obtain ⟨_, x, hbitRate, hdeviation⟩ := Res.bind_eq_ok k
  rw [writeDeviation, if_pos huses] at hdeviation
  obtain ⟨_, y, hfdev, hsearch⟩ := Res.bind_eq_ok hdeviation
  have hsy : Continues s y := (((((setMode_bus .standby s).continues_of_ok hmode).trans (regWrite_ok hfrf).1).trans
    (regWrite_ok hmodul).1).trans (writeBitRate_ok hbitRate).1).trans (regWrite_ok hfdev).1
  rw [searchAndWriteBw, hsy.cfg] at hsearch
  cases hfind : bwSearch rc.freqDeviationHz rc.bitRateBps (isOok s.cfg rc.modulationFlags) with
  | none =>
    rw [hfind] at hsearch
    cases hsearch
  | some p =>
    rw [hfind] at hsearch
    exact ⟨p, y, rfl, hsy, hsearch⟩

/-- R108: a bandwidth write in the full style has sent the byte to each register it goes to. -/
theorem writeRxBw_full {d : BitVec 3} {p : Nat × Nat} {s t : State} (k : writeRxBw p s = .ok () t)
    (hd : s.cfg.rxbwWrite = .full d) {a : Addr} (ha : a = s.cfg.regs.rxbw ∨ s.cfg.afcbwAlso = true ∧ a = s.cfg.regs.afcbw) :
    SentBetween (writeMosi a [bwFullByte s.cfg d p]) s t := by
  have hfull : ∀ {a : Addr} {u v : State}, u.cfg = s.cfg → writeBwReg a p u = .ok () v →
      Continues u v ∧ SentBetween (writeMosi a [bwFullByte s.cfg d p]) u v := by
    intro a u v hc hwrite
    rw [writeBwReg, hc, hd] at hwrite
    exact regWrite_ok hwrite
  obtain ⟨_, u, hrx, hafc⟩ := Res.bind_eq_ok k
  obtain ⟨hcont, hsent⟩ := hfull rfl hrx
  split at hafc
  · obtain ⟨hcont', hsent'⟩ := hfull hcont.cfg hafc
    rcases ha with rfl | ⟨_, rfl⟩
    · exact hsent.after hcont'
    · rw [hcont.cfg] at hsent'
      exact hsent'.before hcont
  · next hno =>
    cases hafc
    rcases ha with rfl | ⟨hyes, _⟩
    · exact hsent
    · exact absurd (by rwa [hcont.cfg]) hno

/-! ## The sync configuration (R73) -/

theorem syncOnValue_eq (c : Config) (len : Nat) :
    syncOnValue c len = fieldPut c.fields.syncOn 1 ||| fieldPut c.fields.syncSize (BitVec.ofNat 8 (len - 1)) := by
  rw [syncOnValue, fieldPut_zero, fieldPut_zero]
  exact BitVec.or_zero.trans (congrArg (· ||| _) BitVec.or_zero)

theorem syncOnValue_default {c : Config} (hc : c.fields = defaultFieldMap) :
    ∀ len, len < 9 → syncOnValue c len = 0x80 ||| BitVec.ofNat 8 ((len - 1) * 8) := by
  unfold syncOnValue
  rw [hc]
  decide

theorem ofNat_pred_lt {len : Nat} (h : len ≤ 8) : (BitVec.ofNat 8 (len - 1)).toNat < 2 ^ 3 := by
  rw [BitVec.toNat_ofNat]
  omega

/-- R73: at disjoint fields the byte is the flag, the length, and no other bit. -/
theorem syncOnValue_fields {c : Config} (hok : configOk c = true)
    (hdisjoint : fieldMask c.fields.syncOn 1 &&& fieldMask c.fields.syncSize 3 = 0) {len : Nat} (hlen : len ≤ 8) :
    (syncOnValue c len).getLsbD c.fields.syncOn = true ∧
    fieldGet c.fields.syncSize 3 (syncOnValue c len) = BitVec.ofNat 8 (len - 1) ∧
    ∀ k, k ≠ c.fields.syncOn.val → ¬ (c.fields.syncSize.val ≤ k ∧ k < c.fields.syncSize.val + 3) →
      (syncOnValue c len).getLsbD k = false := by
  have hsize := configOk_syncSize hok
  have hon : c.fields.syncOn.val < 8 := c.fields.syncOn.isLt
  have hone : (1 : Byte).toNat < 2 ^ 1 := by decide
  have hlength := ofNat_pred_lt hlen
  rw [syncOnValue_eq]
  refine ⟨?_, fieldGet_eq hlength fun k hk => ?_, fun k hk hout => ?_⟩
  · have hflag := fieldPut_getLsbD_inside (k := 0) 1 (show c.fields.syncOn.val + 1 ≤ 8 from hon) Nat.one_pos
    rw [Nat.add_zero] at hflag
    rw [BitVec.getLsbD_or, hflag]
    rfl
  · rw [BitVec.and_comm] at hdisjoint
    rw [BitVec.getLsbD_or, fieldPut_getLsbD_inside _ hsize hk, fieldPut_getLsbD_outside hone
      (not_inside_of_masks hdisjoint (by omega) (by omega)), Bool.false_or]
  · rw [BitVec.getLsbD_or, fieldPut_getLsbD_outside hone (by omega), fieldPut_getLsbD_outside hlength hout, Bool.or_false]

/-- Settles O36: the fields' bits, the default positions by evaluation, and the frames of a full write. -/
theorem bandwidthFieldKeepsOtherBits : Obligations.BandwidthFieldKeepsOtherBits := by
  refine ⟨fun c old hok p hp => bwRmw_fields hok old hp, fun c old hc p hp => ?_, fun c d hc p hp => bwFullByte_default hc d p hp,
    fun c d hok hdisjoint p hp => bwFullByte_fields hok hdisjoint d hp, fun s t rc d es hx ht hr hrate hdev hd hc => ?_, rfl,
    fun c hc len _ hmax => syncOnValue_default hc len (by omega),
    fun c hok hdisjoint len _ hmax => syncOnValue_fields hok hdisjoint hmax⟩
  · rw [bwKeepMask_default hc, bwBits_default hc p hp]
  · obtain ⟨u, hrule, hu⟩ := exec_setConfig_returned hx hr
    obtain ⟨p, x, hfind, hcont, hwrite⟩ := setConfig_bandwidth hrule (usesDeviation_iff.2 ⟨hrate, hdev⟩)
    have hcfg : x.cfg = s.cfg := hcont.cfg
    refine ⟨p, hfind, fun a ha => ?_⟩
    have hsent := writeRxBw_full hwrite (hcfg ▸ hd) (a := a) (hcfg ▸ ha)
    rw [hcfg, bwFullByte_default hc d p (List.mem_of_find?_eq_some hfind)] at hsent
    exact (hsent.before hcont).mem (hu.symm.trans ht)

end Sys2Proof.Machine
end
